-- ==== Sys2Proof/Word.lean ====
section
/-! DEFINITION. The widths HPFE's rules speak of: bytes, 32-bit words, and the byte arrays FB, TXB and PCB as plain
data (00_scope.md R12, 20_memory.md R70). -/

namespace Sys2Proof

/-- `u8`, "called a byte" (R12). -/
abbrev Byte := BitVec 8

/-- A 32-bit word: a command word, a header word, a status word (R12, R48, R102, R127). -/
abbrev Word := BitVec 32

/-- One byte array of R70 (FB, TXB or PCB): the bytes it lists by offset. The form it is kept in is
`Memory.wf` of Machine/Memory.lean. -/
abbrev Memory := List (Nat × Byte)

/-- A number of `CFG.NUM`. Under the spec's value of `CFG.NUM`, "the exact rational numbers" (R202, D33), it is the
number itself; under another numeric model a rational names a number of that model (log 11). -/
abbrev Num := Rat

/-- A logical value of a field (R18). Equality is "the same constructor and equal contents". -/
inductive Value where
  /-- `Bool(b)` -/
  | bool (b : Bool)
  /-- `Num(q)`, `q` a number of `CFG.NUM` -/
  | num (q : Num)
  /-- `Str(t)` -/
  | str (t : String)
  /-- `Undef`, the sentinel of the keyed lookup (R212) -/
  | undef
deriving DecidableEq, Repr

end Sys2Proof
end

