-- ==== Sys2Proof/Syntax.lean ====
section
/-! DEFINITION. The instructions: one constructor for each row of the opcode table, with the fields R102 gives its
format (30_encoding.md R102 to R106, R109), and the frame header rows with the header bytes their pattern leaves free
(R127). -/

namespace Sys2Proof

/-- The `VIEW` field (20_memory.md R71). -/
inductive View where
  /-- `V0` frame data -/
  | v0
  /-- `V1` pending command -/
  | v1
  /-- `V2` transmit frame -/
  | v2
  /-- `V3` raw received frame -/
  | v3
deriving DecidableEq, Repr

/-- The `SEL` field of RD_STATUS: the four status words of 10_state.md R48. -/
inductive StatusSel where
  /-- `SEL = 0`, STATUS -/
  | status
  /-- `SEL = 1`, POLL_CNT -/
  | pollCount
  /-- `SEL = 2`, the lengths of RB_Q and FB -/
  | lengths
  /-- `SEL = 3`, FAULT_INFO -/
  | faultInfo
deriving DecidableEq, Repr

/-- The instructions of spec/opcode_table.json, in the table's order. -/
inductive Instr where
  /-- NOP (R313) -/
  | nop
  /-- RB_SIZE (R140) -/
  | rbSize
  /-- RB_PUSH `CNT` (R141) -/
  | rbPush (cnt : BitVec 9)
  /-- RB_PEEK `CNT` (R142) -/
  | rbPeek (cnt : BitVec 9)
  /-- RB_POP (R143) -/
  | rbPop
  /-- RB_DISCARD_UNTIL `MRK` (R144) -/
  | rbDiscardUntil (mrk : Byte)
  /-- RD_BITS (R161) -/
  | rdBits (view : View) (off : BitVec 9) (bit : BitVec 4) (w : BitVec 6)
  /-- WR_BITS (R162) -/
  | wrBits (view : View) (off : BitVec 9) (bit : BitVec 4) (w : BitVec 6)
  /-- RD_BYTES (R163) -/
  | rdBytes (view : View) (off : BitVec 9) (w : BitVec 6)
  /-- WR_BYTES (R164) -/
  | wrBytes (view : View) (off : BitVec 9) (w : BitVec 6)
  /-- RD_ARRAY (R165) -/
  | rdArray (view : View) (off : BitVec 9) (w : BitVec 6)
  /-- WR_ARRAY (R166) -/
  | wrArray (view : View) (off : BitVec 9) (w : BitVec 6)
  /-- DEC_TRI (R195) -/
  | decTri (view : View) (slot : BitVec 8)
  /-- ENC_TRI (R196) -/
  | encTri (view : View) (slot : BitVec 8)
  /-- DEC_SCALED (R200) -/
  | decScaled (view : View) (slot : BitVec 8)
  /-- ENC_SCALED (R201) -/
  | encScaled (view : View) (slot : BitVec 8)
  /-- DEC_INDEX (R205) -/
  | decIndex (view : View) (slot : BitVec 8)
  /-- ENC_INDEX (R206) -/
  | encIndex (view : View) (slot : BitVec 8)
  /-- DEC_KEYED (R211) -/
  | decKeyed (view : View) (slot : BitVec 8)
  /-- ENC_KEYED (R213) -/
  | encKeyed (view : View) (slot : BitVec 8)
  /-- DEC_CUSTOM (R218) -/
  | decCustom (view : View) (slot : BitVec 8)
  /-- ENC_CUSTOM (R219) -/
  | encCustom (view : View) (slot : BitVec 8)
  /-- SLOT_NOTIFY (R226) -/
  | slotNotify (slot : BitVec 8)
  /-- SLOT_WRITE (R227) -/
  | slotWrite (slot : BitVec 8)
  /-- PARSE (R249) -/
  | parse
  /-- CK_GEN (R241) -/
  | ckGen
  /-- CK_CHK (R242) -/
  | ckChk (view : View)
  /-- SER_INIT (R253) -/
  | serInit
  /-- SER_STD (R254) -/
  | serStd
  /-- SER_EXT (R255) -/
  | serExt
  /-- SER_CMD (R256) -/
  | serCmd
  /-- TX_SEND (R257) -/
  | txSend
  /-- TXN_START_INT (R281) -/
  | txnStartInt
  /-- TXN_START_EXT (R282) -/
  | txnStartExt
  /-- TXN_STOP (R283) -/
  | txnStop
  /-- DISPATCH (R297) -/
  | dispatch
  /-- RX_PRI (R302) -/
  | rxPri
  /-- RX_EXT (R303) -/
  | rxExt
  /-- FLUSH (R304) -/
  | flush
  /-- RD_STATUS (R312) -/
  | rdStatus (sel : StatusSel)
  /-- EV_LOOP (R300) -/
  | evLoop
  /-- EV_UPDATE (R306) -/
  | evUpdate
  /-- EV_TIMEOUT (R296) -/
  | evTimeout
  /-- EV_SETTLE (R309) -/
  | evSettle
  /-- EV_PSTART (R310) -/
  | evPstart
  /-- FRAME_TX_INIT: header 31 08 `dir` 01 (R253) -/
  | frameTxInit (dir : Byte)
  /-- FRAME_TX_STD_POLL: header 71 6F `dir` 10 (R254) -/
  | frameTxStdPoll (dir : Byte)
  /-- FRAME_TX_EXT_POLL: header 71 6F `dir` 21 (R255) -/
  | frameTxExtPoll (dir : Byte)
  /-- FRAME_TX_CMD: header F1 6F `dir` `cat` (R256) -/
  | frameTxCmd (dir cat : Byte)
  /-- FRAME_RX_PRE_POLL: header 71 `len` `dir` `cat` (R244) -/
  | frameRxPrePoll (len dir cat : Byte)
  /-- FRAME_RX_PRE_CMD: header F1 `len` `dir` `cat` (R244) -/
  | frameRxPreCmd (len dir cat : Byte)
  /-- FRAME_RX_PRE_INIT: header 31 `len` `dir` `cat` (R244) -/
  | frameRxPreInit (len dir cat : Byte)
  /-- FRAME_RX_CAT_INIT: header `pre` `len` `dir` 01 (R248) -/
  | frameRxCatInit (pre len dir : Byte)
  /-- FRAME_RX_CAT_STD: header `pre` `len` `dir` 10 (R248) -/
  | frameRxCatStd (pre len dir : Byte)
  /-- FRAME_RX_CAT_EXTRA: header `pre` `len` `dir` 21 (R248) -/
  | frameRxCatExtra (pre len dir : Byte)
deriving DecidableEq, Repr

end Sys2Proof
end

