-- ==== Sys2Proof/WellFormed.lean ====
section
/-! DEFINITION. Well-formed instructions. The fields' types hold every bound of R102; what remains is the overlap of
the frame header rows: a received header whose category byte is one of the three known ones is a FRAME_RX_CAT_* row,
so a FRAME_RX_PRE_* instruction carries another category byte (R127, log 9). -/

namespace Sys2Proof

/-- The category byte of a FRAME_RX_PRE_* instruction: none of 01, 10, 21 (R124), whose rows come first (log 9). -/
def otherCategory (cat : Byte) : Bool :=
  cat != 0x01 && cat != 0x10 && cat != 0x21

/-- What the encoding admits beyond the fields' types (log 9). -/
def Instr.wf : Instr → Bool
  | .frameRxPrePoll _ _ cat => otherCategory cat
  | .frameRxPreCmd _ _ cat => otherCategory cat
  | .frameRxPreInit _ _ cat => otherCategory cat
  | .nop | .rbSize | .rbPush _ | .rbPeek _ | .rbPop | .rbDiscardUntil _ | .rdBits _ _ _ _ | .wrBits _ _ _ _
  | .rdBytes _ _ _ | .wrBytes _ _ _ | .rdArray _ _ _ | .wrArray _ _ _ | .decTri _ _ | .encTri _ _
  | .decScaled _ _ | .encScaled _ _ | .decIndex _ _ | .encIndex _ _ | .decKeyed _ _ | .encKeyed _ _
  | .decCustom _ _ | .encCustom _ _ | .slotNotify _ | .slotWrite _ | .parse | .ckGen | .ckChk _ | .serInit
  | .serStd | .serExt | .serCmd | .txSend | .txnStartInt | .txnStartExt | .txnStop | .dispatch | .rxPri
  | .rxExt | .flush | .rdStatus _ | .evLoop | .evUpdate | .evTimeout | .evSettle | .evPstart
  | .frameTxInit _ | .frameTxStdPoll _ | .frameTxExtPoll _ | .frameTxCmd _ _
  | .frameRxCatInit _ _ _ | .frameRxCatStd _ _ _ | .frameRxCatExtra _ _ _ => true

/-- A command word's instruction, as against a frame header row (R100: "Two encodings"). -/
inductive Encoding where
  /-- the 32-bit command word of R101 -/
  | command
  /-- the header word of a frame HPFE sends (R126, R127) -/
  | txHeader
  /-- the header word of a received frame (R127) -/
  | rxHeader
deriving DecidableEq, Repr

/-- Which of the encodings an instruction belongs to. -/
def Instr.encoding : Instr → Encoding
  | .frameTxInit _ | .frameTxStdPoll _ | .frameTxExtPoll _ | .frameTxCmd _ _ => .txHeader
  | .frameRxPrePoll _ _ _ | .frameRxPreCmd _ _ _ | .frameRxPreInit _ _ _
  | .frameRxCatInit _ _ _ | .frameRxCatStd _ _ _ | .frameRxCatExtra _ _ _ => .rxHeader
  | .nop | .rbSize | .rbPush _ | .rbPeek _ | .rbPop | .rbDiscardUntil _ | .rdBits _ _ _ _ | .wrBits _ _ _ _
  | .rdBytes _ _ _ | .wrBytes _ _ _ | .rdArray _ _ _ | .wrArray _ _ _ | .decTri _ _ | .encTri _ _
  | .decScaled _ _ | .encScaled _ _ | .decIndex _ _ | .encIndex _ _ | .decKeyed _ _ | .encKeyed _ _
  | .decCustom _ _ | .encCustom _ _ | .slotNotify _ | .slotWrite _ | .parse | .ckGen | .ckChk _ | .serInit
  | .serStd | .serExt | .serCmd | .txSend | .txnStartInt | .txnStartExt | .txnStop | .dispatch | .rxPri
  | .rxExt | .flush | .rdStatus _ | .evLoop | .evUpdate | .evTimeout | .evSettle | .evPstart => .command

end Sys2Proof
end

