-- ==== Sys2Proof/Decode.lean ====
section
/-! DEFINITION. Decoding a command word (30_encoding.md R101 to R112) and a frame header word (R127), total and
rejecting by name, and after it the encoder, written from the same tables. -/

namespace Sys2Proof

/-- Why a word decodes to no instruction. -/
inductive DecodeError where
  /-- an `OPC` not in the opcode map (R111, R112) -/
  | reservedOpcode
  /-- a reserved bit, or a field the operation requires to be 0, is not 0 (R112) -/
  | reservedField
  /-- a header word that no frame row matches (R127) -/
  | noFrameRow
deriving DecidableEq, Repr

/-- `VIEW` from its 2 bits (20_memory.md R71). -/
def viewOfBits (b : BitVec 2) : View :=
  if b = 0 then .v0 else if b = 1 then .v1 else if b = 2 then .v2 else .v3

/-- The 2 bits of `VIEW` (20_memory.md R71). -/
def viewBits : View → BitVec 2
  | .v0 => 0
  | .v1 => 1
  | .v2 => 2
  | .v3 => 3

/-- `SEL` from its 2 bits (10_state.md R48). -/
def selOfBits (b : BitVec 2) : StatusSel :=
  if b = 0 then .status else if b = 1 then .pollCount else if b = 2 then .lengths else .faultInfo

/-- The 2 bits of `SEL` (10_state.md R48). -/
def selBits : StatusSel → BitVec 2
  | .status => 0
  | .pollCount => 1
  | .lengths => 2
  | .faultInfo => 3

/-! ### The fields of R102 -/

/-- `OPC = cmd[31:24]` -/
def fieldOpc (w : Word) : BitVec 8 := w.extractLsb' 24 8
/-- `cmd[23:0]` -/
def fieldRest (w : Word) : BitVec 24 := w.extractLsb' 0 24
/-- `VIEW = cmd[23:22]`, and `SEL` of format T -/
def fieldView (w : Word) : BitVec 2 := w.extractLsb' 22 2
/-- `CNT = cmd[23:15]` -/
def fieldCnt (w : Word) : BitVec 9 := w.extractLsb' 15 9
/-- `MRK = cmd[14:7]` -/
def fieldMrk (w : Word) : BitVec 8 := w.extractLsb' 7 8
/-- `OFF = cmd[21:13]` -/
def fieldOff (w : Word) : BitVec 9 := w.extractLsb' 13 9
/-- `BIT = cmd[12:9]` -/
def fieldBit (w : Word) : BitVec 4 := w.extractLsb' 9 4
/-- `W = cmd[8:3]` -/
def fieldW (w : Word) : BitVec 6 := w.extractLsb' 3 6
/-- `SLOT = cmd[21:14]` -/
def fieldSlot (w : Word) : BitVec 8 := w.extractLsb' 14 8

/-- Answers the instruction where the fields that must be 0 are 0 (R112). -/
def admit0 (zero : Bool) (i : Instr) : Except DecodeError Instr :=
  if zero then .ok i else .error .reservedField

/-- Format N: `cmd[23:0] = 0` (R102, R103). -/
def formatN (w : Word) (i : Instr) : Except DecodeError Instr :=
  admit0 (fieldRest w == 0) i

/-- Format R of an operation that uses `CNT` alone: `MRK = 0`, `cmd[6:0] = 0` (R104). -/
def formatRCnt (w : Word) (i : BitVec 9 → Instr) : Except DecodeError Instr :=
  admit0 (fieldMrk w == 0 && w.extractLsb' 0 7 == 0) (i (fieldCnt w))

/-- Format R of the operation that uses `MRK` alone: `CNT = 0`, `cmd[6:0] = 0` (R104). -/
def formatRMrk (w : Word) (i : BitVec 8 → Instr) : Except DecodeError Instr :=
  admit0 (fieldCnt w == 0 && w.extractLsb' 0 7 == 0) (i (fieldMrk w))

/-- Format B of a bit operation: `cmd[2:0] = 0` (R105). -/
def formatBBits (w : Word) (i : View → BitVec 9 → BitVec 4 → BitVec 6 → Instr) : Except DecodeError Instr :=
  admit0 (w.extractLsb' 0 3 == 0) (i (viewOfBits (fieldView w)) (fieldOff w) (fieldBit w) (fieldW w))

/-- Format B of a byte-count operation: `BIT = 0`, `cmd[2:0] = 0` (R105). -/
def formatBBytes (w : Word) (i : View → BitVec 9 → BitVec 6 → Instr) : Except DecodeError Instr :=
  admit0 (fieldBit w == 0 && w.extractLsb' 0 3 == 0) (i (viewOfBits (fieldView w)) (fieldOff w) (fieldW w))

/-- Format S with a view: `cmd[13:0] = 0` (R106). -/
def formatSView (w : Word) (i : View → BitVec 8 → Instr) : Except DecodeError Instr :=
  admit0 (w.extractLsb' 0 14 == 0) (i (viewOfBits (fieldView w)) (fieldSlot w))

/-- Format S of SLOT_NOTIFY and SLOT_WRITE: `VIEW = 0`, `cmd[13:0] = 0` (R106). -/
def formatSSlot (w : Word) (i : BitVec 8 → Instr) : Except DecodeError Instr :=
  admit0 (fieldView w == 0 && w.extractLsb' 0 14 == 0) (i (fieldSlot w))

/-- Formats V and T: `cmd[21:0] = 0` (R102, R109). -/
def formatVT (w : Word) (i : BitVec 2 → Instr) : Except DecodeError Instr :=
  admit0 (w.extractLsb' 0 22 == 0) (i (fieldView w))

/-- The opcode map of R111: "`OPC` alone selects the operation and its format" (R101). -/
def decodeCommand (w : Word) : Except DecodeError Instr :=
  match fieldOpc w with
  | 0x00#8 => formatN w .nop
  | 0x01#8 => formatN w .rbSize
  | 0x02#8 => formatRCnt w .rbPush
  | 0x03#8 => formatRCnt w .rbPeek
  | 0x04#8 => formatN w .rbPop
  | 0x05#8 => formatRMrk w .rbDiscardUntil
  | 0x10#8 => formatBBits w .rdBits
  | 0x11#8 => formatBBits w .wrBits
  | 0x12#8 => formatBBytes w .rdBytes
  | 0x13#8 => formatBBytes w .wrBytes
  | 0x14#8 => formatBBytes w .rdArray
  | 0x15#8 => formatBBytes w .wrArray
  | 0x20#8 => formatSView w .decTri
  | 0x21#8 => formatSView w .encTri
  | 0x22#8 => formatSView w .decScaled
  | 0x23#8 => formatSView w .encScaled
  | 0x24#8 => formatSView w .decIndex
  | 0x25#8 => formatSView w .encIndex
  | 0x26#8 => formatSView w .decKeyed
  | 0x27#8 => formatSView w .encKeyed
  | 0x28#8 => formatSView w .decCustom
  | 0x29#8 => formatSView w .encCustom
  | 0x2A#8 => formatSSlot w .slotNotify
  | 0x2B#8 => formatSSlot w .slotWrite
  | 0x40#8 => formatN w .parse
  | 0x41#8 => formatN w .ckGen
  | 0x42#8 => formatVT w (fun b => .ckChk (viewOfBits b))
  | 0x43#8 => formatN w .serInit
  | 0x44#8 => formatN w .serStd
  | 0x45#8 => formatN w .serExt
  | 0x46#8 => formatN w .serCmd
  | 0x47#8 => formatN w .txSend
  | 0x50#8 => formatN w .txnStartInt
  | 0x51#8 => formatN w .txnStartExt
  | 0x52#8 => formatN w .txnStop
  | 0x53#8 => formatN w .dispatch
  | 0x54#8 => formatN w .rxPri
  | 0x55#8 => formatN w .rxExt
  | 0x56#8 => formatN w .flush
  | 0x5F#8 => formatVT w (fun b => .rdStatus (selOfBits b))
  | 0x60#8 => formatN w .evLoop
  | 0x61#8 => formatN w .evUpdate
  | 0x62#8 => formatN w .evTimeout
  | 0x63#8 => formatN w .evSettle
  | 0x64#8 => formatN w .evPstart
  | _ => .error .reservedOpcode

/-! ### Frame header words: `H = (b0 << 24) | (b1 << 16) | (b2 << 8) | b3` (R127) -/

/-- Byte 0 of the header, the preamble. -/
def header0 (h : Word) : Byte := h.extractLsb' 24 8
/-- Byte 1, the length field. -/
def header1 (h : Word) : Byte := h.extractLsb' 16 8
/-- Byte 2, the direction. -/
def header2 (h : Word) : Byte := h.extractLsb' 8 8
/-- Byte 3, the category. -/
def header3 (h : Word) : Byte := h.extractLsb' 0 8

/-- The header rows of the frames HPFE sends (R126, rows FRAME_TX_*). -/
def decodeTxHeader (h : Word) : Except DecodeError Instr :=
  if header0 h = 0x31 ∧ header1 h = 0x08 ∧ header3 h = 0x01 then .ok (.frameTxInit (header2 h))
  else if header0 h = 0x71 ∧ header1 h = 0x6F ∧ header3 h = 0x10 then .ok (.frameTxStdPoll (header2 h))
  else if header0 h = 0x71 ∧ header1 h = 0x6F ∧ header3 h = 0x21 then .ok (.frameTxExtPoll (header2 h))
  else if header0 h = 0xF1 ∧ header1 h = 0x6F then .ok (.frameTxCmd (header2 h) (header3 h))
  else .error .noFrameRow

/-- The header rows of received frames (R123, R124, rows FRAME_RX_*). A header may match a category row and a
preamble row: the category row is taken (log 9). -/
def decodeRxHeader (h : Word) : Except DecodeError Instr :=
  if header3 h = 0x01 then .ok (.frameRxCatInit (header0 h) (header1 h) (header2 h))
  else if header3 h = 0x10 then .ok (.frameRxCatStd (header0 h) (header1 h) (header2 h))
  else if header3 h = 0x21 then .ok (.frameRxCatExtra (header0 h) (header1 h) (header2 h))
  else if header0 h = 0x71 then .ok (.frameRxPrePoll (header1 h) (header2 h) (header3 h))
  else if header0 h = 0xF1 then .ok (.frameRxPreCmd (header1 h) (header2 h) (header3 h))
  else if header0 h = 0x31 then .ok (.frameRxPreInit (header1 h) (header2 h) (header3 h))
  else .error .noFrameRow

/-- The decoder of each encoding (R100). -/
def decode (e : Encoding) (w : Word) : Except DecodeError Instr :=
  match e with
  | .command => decodeCommand w
  | .txHeader => decodeTxHeader w
  | .rxHeader => decodeRxHeader w

/-- The encodings in the order a word of the opcode table is tried in, with the instruction found (log 9). -/
def decodeTable (w : Word) : Option (Encoding × Instr) :=
  match decodeCommand w with
  | .ok i => some (.command, i)
  | .error _ =>
    match decodeTxHeader w with
    | .ok i => some (.txHeader, i)
    | .error _ =>
      match decodeRxHeader w with
      | .ok i => some (.rxHeader, i)
      | .error _ => none

/-- The instruction of a word numbered as the opcode table numbers its bits. Every row has 32 bits; a number with
more bits than the word is no word of HPFE (R100: "There is no other command length"). -/
def decodeTableWord (nbits w : Nat) : Option Instr :=
  if nbits ≤ 32 ∧ w < 2 ^ 32 then (decodeTable (BitVec.ofNat 32 w)).map (·.2) else none

/-! ### The encoder -/

/-- Format N of R102. -/
def encodeN (opc : BitVec 8) : Word := opc ++ (0 : BitVec 24)
/-- Format R of R102. -/
def encodeR (opc : BitVec 8) (cnt : BitVec 9) (mrk : BitVec 8) : Word := opc ++ cnt ++ mrk ++ (0 : BitVec 7)
/-- Format B of R102. -/
def encodeB (opc : BitVec 8) (v : View) (off : BitVec 9) (bit : BitVec 4) (w : BitVec 6) : Word :=
  opc ++ viewBits v ++ off ++ bit ++ w ++ (0 : BitVec 3)
/-- Format S of R102. -/
def encodeS (opc : BitVec 8) (v : View) (slot : BitVec 8) : Word := opc ++ viewBits v ++ slot ++ (0 : BitVec 14)
/-- Formats V and T of R102. -/
def encodeVT (opc : BitVec 8) (b : BitVec 2) : Word := opc ++ b ++ (0 : BitVec 22)
/-- A header word (R127). -/
def encodeHeader (b0 b1 b2 b3 : Byte) : Word := b0 ++ b1 ++ b2 ++ b3

/-- The word of an instruction (R102, R111, R127). -/
def encode : Instr → Word
  | .nop => encodeN 0x00
  | .rbSize => encodeN 0x01
  | .rbPush cnt => encodeR 0x02 cnt 0
  | .rbPeek cnt => encodeR 0x03 cnt 0
  | .rbPop => encodeN 0x04
  | .rbDiscardUntil mrk => encodeR 0x05 0 mrk
  | .rdBits v off bit w => encodeB 0x10 v off bit w
  | .wrBits v off bit w => encodeB 0x11 v off bit w
  | .rdBytes v off w => encodeB 0x12 v off 0 w
  | .wrBytes v off w => encodeB 0x13 v off 0 w
  | .rdArray v off w => encodeB 0x14 v off 0 w
  | .wrArray v off w => encodeB 0x15 v off 0 w
  | .decTri v slot => encodeS 0x20 v slot
  | .encTri v slot => encodeS 0x21 v slot
  | .decScaled v slot => encodeS 0x22 v slot
  | .encScaled v slot => encodeS 0x23 v slot
  | .decIndex v slot => encodeS 0x24 v slot
  | .encIndex v slot => encodeS 0x25 v slot
  | .decKeyed v slot => encodeS 0x26 v slot
  | .encKeyed v slot => encodeS 0x27 v slot
  | .decCustom v slot => encodeS 0x28 v slot
  | .encCustom v slot => encodeS 0x29 v slot
  | .slotNotify slot => encodeS 0x2A .v0 slot
  | .slotWrite slot => encodeS 0x2B .v0 slot
  | .parse => encodeN 0x40
  | .ckGen => encodeN 0x41
  | .ckChk v => encodeVT 0x42 (viewBits v)
  | .serInit => encodeN 0x43
  | .serStd => encodeN 0x44
  | .serExt => encodeN 0x45
  | .serCmd => encodeN 0x46
  | .txSend => encodeN 0x47
  | .txnStartInt => encodeN 0x50
  | .txnStartExt => encodeN 0x51
  | .txnStop => encodeN 0x52
  | .dispatch => encodeN 0x53
  | .rxPri => encodeN 0x54
  | .rxExt => encodeN 0x55
  | .flush => encodeN 0x56
  | .rdStatus sel => encodeVT 0x5F (selBits sel)
  | .evLoop => encodeN 0x60
  | .evUpdate => encodeN 0x61
  | .evTimeout => encodeN 0x62
  | .evSettle => encodeN 0x63
  | .evPstart => encodeN 0x64
  | .frameTxInit dir => encodeHeader 0x31 0x08 dir 0x01
  | .frameTxStdPoll dir => encodeHeader 0x71 0x6F dir 0x10
  | .frameTxExtPoll dir => encodeHeader 0x71 0x6F dir 0x21
  | .frameTxCmd dir cat => encodeHeader 0xF1 0x6F dir cat
  | .frameRxPrePoll len dir cat => encodeHeader 0x71 len dir cat
  | .frameRxPreCmd len dir cat => encodeHeader 0xF1 len dir cat
  | .frameRxPreInit len dir cat => encodeHeader 0x31 len dir cat
  | .frameRxCatInit pre len dir => encodeHeader pre len dir 0x01
  | .frameRxCatStd pre len dir => encodeHeader pre len dir 0x10
  | .frameRxCatExtra pre len dir => encodeHeader pre len dir 0x21

/-- `OPC` of a command (R101). -/
def opcodeOf (i : Instr) : BitVec 8 := fieldOpc (encode i)

/-- The four header bytes of a header word, offset 0 first (R120, R127). -/
def headerBytes (h : Word) : List Byte := [header0 h, header1 h, header2 h, header3 h]

end Sys2Proof
end

