-- ==== Sys2Proof/Machine/Codes.lean ====
section
/-! DEFINITION. The named codes of the rules with their numbers: response status (30_encoding.md R108), fault codes
(60_exceptions.md R341), transaction state (10_state.md R37), category class (R34, R48), log levels and log codes
(60_exceptions.md R358). -/

namespace Sys2Proof.Machine

/-- `STATUS` of a response (R108). -/
inductive Status where
  | ok | absent | needMore | badLength | badChecksum | busy | noEffect | fault
deriving DecidableEq, Repr

/-- The byte of a `STATUS` (R108). -/
def Status.code : Status → Byte
  | .ok => 0x00
  | .absent => 0x01
  | .needMore => 0x02
  | .badLength => 0x03
  | .badChecksum => 0x04
  | .busy => 0x05
  | .noEffect => 0x06
  | .fault => 0xFF

/-- HPFE's faults (R341). Each is taken by fault entry (R346): a next state, not a stop of the model. -/
inductive FaultCode where
  | illegalCmd | rbOverflow | rbUnderflow | rbRange | viewBounds | fieldShape | dataRange | encRange
  | slotRange | slotKind | config | slotMode | viewRo
deriving DecidableEq, Repr

/-- The number of a fault code (R341). -/
def FaultCode.code : FaultCode → Byte
  | .illegalCmd => 0x01
  | .rbOverflow => 0x02
  | .rbUnderflow => 0x03
  | .rbRange => 0x04
  | .viewBounds => 0x05
  | .fieldShape => 0x06
  | .dataRange => 0x07
  | .encRange => 0x08
  | .slotRange => 0x09
  | .slotKind => 0x0A
  | .config => 0x0B
  | .slotMode => 0x0C
  | .viewRo => 0x0D

/-- `TXN_STATE` (R37). "Value `3` is reserved: no rule writes it, so it is never held." -/
inductive TxnState where
  | idle | internal | external
deriving DecidableEq, Repr

/-- The 2 bits of `TXN_STATE` (R37). -/
def TxnState.code : TxnState → BitVec 2
  | .idle => 0
  | .internal => 1
  | .external => 2

/-- `FB_CAT`, and the class PARSE answers (R34). -/
inductive FrameClass where
  | none | init | std | extra | unknown
deriving DecidableEq, Repr

/-- The 3 bits of `FB_CAT` in STATUS (R48). -/
def FrameClass.code : FrameClass → BitVec 3
  | .none => 0
  | .init => 1
  | .std => 2
  | .extra => 3
  | .unknown => 4

/-- The level of a log event (R358). -/
inductive LogLevel where
  | debug | warning | error
deriving DecidableEq, Repr

/-- The code of a log event (R358). -/
inductive LogCode where
  | wTriInvalid | wIndexRange | wEncUnknown | wBadLength | wBadChecksum | dUnknownCat | eTxnBusy | wTxnTimeout
  | fFault
deriving DecidableEq, Repr

/-- The level each log code is emitted at (R358). -/
def LogCode.level : LogCode → LogLevel
  | .wTriInvalid | .wIndexRange | .wEncUnknown | .wBadLength | .wBadChecksum | .wTxnTimeout => .warning
  | .dUnknownCat => .debug
  | .eTxnBusy | .fFault => .error

end Sys2Proof.Machine
end

