-- ==== Sys2Proof/Config.lean ====
section
/-! DEFINITION. The configuration record `CFG` of 00_scope.md R6 with the slot descriptors of 10_state.md R45, and the
free values of the model (opaque constants: nothing is known of them). The checks of a configuration (R356) and the
constants derived from it (R8) are in Machine/Configuration.lean. -/

namespace Sys2Proof

/-! ### Free values (opaque: a statement about them holds whatever they are) -/

/-- FREE VALUE. The rank of slot `s` in the order of the `k`-th dispatch: 45_arbiter.md R298 fixes no order
(log 10). -/
opaque Config.notifyRank (k s : Nat) : Nat

/-- FREE VALUE. A supplied predicate for `EXTRA_SUPPORT_PRED`, "which bit is not given" (R6, D29, log 13). -/
opaque Config.suppliedPred (id : Nat) (data : List Byte) : Bool

/-- FREE VALUE. A supplied decoder `DEC_FN`, "a total function of the view's bytes alone" (R218, I9, log 12). -/
opaque Config.suppliedDec (id : Nat) (view : List Byte) : Option Value

/-- FREE VALUE. A supplied encoder `ENC_FN` (R219, I9, log 12). -/
opaque Config.suppliedEnc (id : Nat) (view : List Byte) (v : Value) : List Byte

/-- FREE VALUE. A natural number as a number of a supplied numeric model (R202, I8, log 11). -/
opaque Config.suppliedOfNat (id n : Nat) : Num

/-- FREE VALUE. `+` of a supplied numeric model (R202, I8, log 11). -/
opaque Config.suppliedAdd (id : Nat) (a b : Num) : Num

/-- FREE VALUE. `-` of a supplied numeric model (R201, R202, I8, log 11). -/
opaque Config.suppliedSub (id : Nat) (a b : Num) : Num

/-- FREE VALUE. `*` of a supplied numeric model (R202, I8, log 11). -/
opaque Config.suppliedMul (id : Nat) (a b : Num) : Num

/-- FREE VALUE. `/` of a supplied numeric model (R202, I8, log 11). -/
opaque Config.suppliedDiv (id : Nat) (a b : Num) : Num

/-- FREE VALUE. `trunc` of a supplied numeric model (R202, I8, log 11). -/
opaque Config.suppliedTrunc (id : Nat) (a : Num) : Int

/-- `NUM` (R6): the "numeric model of the scaled codec", a parameter (R202, I8, log 11). Its operations are in
Machine/Configuration.lean. -/
inductive NumModel where
  /-- "the exact rational numbers, where `trunc` rounds toward zero": this spec's value (R202, D33) -/
  | exactRationals
  /-- "a different `CFG.NUM`" of a device, such as one that computes in binary floating point (R202, I8) -/
  | supplied (id : Nat)
deriving DecidableEq, Repr

/-- `EXTRA_SUPPORT_PRED` (R6): a total function from a byte sequence to boolean, named by plain data. -/
inductive SupportPred where
  /-- the bit at field position `bit` of data byte `byte` (the predicate of the vector configuration); where there is
  no such bit, see `supportShown` (log 13) -/
  | dataBit (byte bit : Nat)
  /-- any other function: `Config.suppliedPred id` -/
  | supplied (id : Nat)
deriving DecidableEq, Repr

/-- `DEC_FN` of a `CUSTOM` slot (R45): a function from a byte sequence to `Option` value, named by plain data. -/
inductive DecFn where
  /-- `some(Num(V[i]+V[j]))` where the view holds both bytes, else `none` (VC-SLOTS, slot 4) -/
  | sumOfBytes (i j : Nat)
  /-- any other function: `Config.suppliedDec id` -/
  | supplied (id : Nat)
deriving DecidableEq, Repr

/-- `ENC_FN` of a `CUSTOM` slot (R45), named by plain data. -/
inductive EncFn where
  /-- a supplied function whose result is as long as its input, as R356 asks -/
  | lengthKeeping (id : Nat)
  /-- a supplied function of which nothing is known: it fails the check of R356 -/
  | unchecked (id : Nat)
deriving DecidableEq, Repr

/-- `KIND` of R45 with the descriptor fields of that kind alone. -/
inductive Codec where
  /-- `TRI`, two-bit tri-state boolean -/
  | tri
  /-- `SCALED`: `MUL`, `OFF` -/
  | scaled (mul off : Num)
  /-- `INDEX`: `TABLE` -/
  | index (table : List String)
  /-- `KEYED`: `MAP`, pairs of a key and a string -/
  | keyed (map : List (List Byte × String))
  /-- `CUSTOM`: `DEC_FN`, `ENC_FN`, each optional -/
  | custom (dec : Option DecFn) (enc : Option EncFn)
deriving DecidableEq, Repr

/-- `KIND` of R45 alone: what a DEC_* or ENC_* command is compared with (R191). -/
inductive Kind where
  | tri | scaled | index | keyed | custom
deriving DecidableEq, Repr

/-- `CAT` of R45: which response category feeds the slot. -/
inductive SlotCat where
  | std | extra
deriving DecidableEq, Repr

/-- `MODE` of R45: read point, write point, or both. -/
inductive SlotMode where
  | r | w | rw
deriving DecidableEq, Repr

/-- A slot descriptor (R45). -/
structure Slot where
  /-- `BYTE`: offset of the field's first byte in the view -/
  byte : Nat
  /-- `BIT`: field position of the field's first bit, 1 = most significant -/
  bit : Nat
  /-- `WIDTH`: field width in bits -/
  width : Nat
  /-- `KIND` and the fields of that kind -/
  codec : Codec
  /-- `CAT` -/
  cat : SlotCat
  /-- `MODE` -/
  mode : SlotMode
deriving DecidableEq, Repr

/-- `EXT_CONTENTION` (R6, D23). -/
inductive Contention where
  | drop | hold
deriving DecidableEq, Repr

/-- The configuration record `CFG` (R6). `N_SLOTS` is the length of `slots`. The types are those of R6's table
(log 22). -/
structure Config where
  /-- `RB_CAP`, 1..65535 -/
  rbCap : BitVec 16
  /-- `RX_CHUNK_MAX`, OPEN -/
  rxChunkMax : Nat
  /-- `MIN_PACKET_SIZE` -/
  minPacketSize : Nat
  /-- `RX_PREAMBLES` -/
  rxPreambles : List Byte
  /-- `PRE_POLL` -/
  prePoll : Byte
  /-- `PRE_CMD` -/
  preCmd : Byte
  /-- `PRE_INIT` -/
  preInit : Byte
  /-- `CAT_INIT` -/
  catInit : Byte
  /-- `CAT_STD` -/
  catStd : Byte
  /-- `CAT_EXTRA` -/
  catExtra : Byte
  /-- `POLL_LEN_FIELD` -/
  pollLenField : Byte
  /-- `INIT_LEN_FIELD` -/
  initLenField : Byte
  /-- `INIT_PAYLOAD` -/
  initPayload : List Byte
  /-- `CMD_LEN_FIELD` -/
  cmdLenField : Byte
  /-- `CMD_CATEGORY`, OPEN -/
  cmdCategory : Byte
  /-- `DIR_TX`, OPEN -/
  dirTx : Byte
  /-- `EXT_CONFIGURED`, OPEN -/
  extConfigured : Bool
  /-- `EXT_CONTENTION` -/
  extContention : Contention
  /-- `TXN_TIMEOUT_MS`: "timing only, no rule reads it" -/
  txnTimeoutMs : Nat
  /-- `SETTLE_DELAY_MS`, OPEN: "timing only, no rule reads it" -/
  settleDelayMs : Nat
  /-- `UPDATE_INTERVAL_MS`, OPEN: "timing only, no rule reads it" -/
  updateIntervalMs : Nat
  /-- `SLOT[s]` for `s < N_SLOTS`, OPEN -/
  slots : List Slot
  /-- `EXTRA_SUPPORT_PRED`, OPEN -/
  extraSupportPred : SupportPred
  /-- `KEY_MAX_BYTES` -/
  keyMaxBytes : Nat
  /-- `NUM` -/
  num : NumModel
deriving DecidableEq, Repr

/-- VC-SLOTS, the slot table of 95_test_vectors.md. -/
def Config.vcSlots : List Slot :=
  [ { byte := 0, bit := 3, width := 2, codec := .tri, cat := .std, mode := .rw },
    { byte := 1, bit := 1, width := 16, codec := .scaled { num := 1, den := 2 } { num := -40, den := 1 },
      cat := .std, mode := .rw },
    { byte := 3, bit := 5, width := 3, codec := .index ["Heat", "Cool", "Auto"], cat := .std, mode := .rw },
    { byte := 4, bit := 3, width := 10, codec := .keyed [([0x01, 0x20], "Eco"), ([0x02, 0x00], "Boost")],
      cat := .extra, mode := .rw },
    { byte := 0, bit := 1, width := 0, codec := .custom (some (.sumOfBytes 6 7)) none, cat := .std, mode := .r },
    { byte := 8, bit := 1, width := 2, codec := .tri, cat := .extra, mode := .r },
    { byte := 10, bit := 1, width := 2, codec := .tri, cat := .std, mode := .w } ]

/-- R6's values with the OPEN fields as the vector configuration VC of 95_test_vectors.md has them. DESIGN CHOICE
(log 2): VC "is not a claim about the hardware", it is what `State.reset` applies. -/
def Config.vc : Config :=
  { rbCap := 512, rxChunkMax := 256, minPacketSize := 5, rxPreambles := [0x71, 0xF1, 0x31],
    prePoll := 0x71, preCmd := 0xF1, preInit := 0x31, catInit := 0x01, catStd := 0x10, catExtra := 0x21,
    pollLenField := 111, initLenField := 8, initPayload := [0, 0, 0, 0, 0, 0], cmdLenField := 111,
    cmdCategory := 0x10, dirTx := 0x01, extConfigured := false, extContention := .drop, txnTimeoutMs := 1500,
    settleDelayMs := 0, updateIntervalMs := 0, slots := Config.vcSlots, extraSupportPred := .dataBit 0 1,
    keyMaxBytes := 8, num := .exactRationals }

end Sys2Proof
end

