-- ==== Sys2Proof/Machine/Bits.lean ====
section
/-! DEFINITION. The pure functions over bytes and byte sequences: field geometry (42_bitfield.md R160), the masked
merge (R167), little-endian assembly (00_scope.md R13), the checksum function (44_frame.md R240) and the geometry of
a keyed field (43_codec.md R210). -/

namespace Sys2Proof

/-- `mask(w) = 2^w - 1` (R11), within a byte. -/
def mask (w : Nat) : Byte := BitVec.ofNat 8 (2 ^ w - 1)

/-- `B[i]`; every use of it is within the sequence. -/
def byteAt (B : List Byte) (i : Nat) : Byte := B.getD i 0

/-- A bit field "lies within one byte" (R160). -/
def wellShaped (bit width : Nat) : Bool :=
  decide (1 ≤ bit) && decide (bit ≤ 8) && decide (1 ≤ width) && decide (bit + width - 1 ≤ 8)

/-- `sh = 9 - bit - width`, "the number of bits to the right of the field" (R160). -/
def fieldShift (bit width : Nat) : Nat := 9 - bit - width

/-- The field of one byte, at the low end of the result (R160). -/
def readField (b : Byte) (bit width : Nat) : Byte := (b >>> fieldShift bit width) &&& mask width

/-- One byte with the field replaced (R160). -/
def writeField (b : Byte) (bit width : Nat) (v : Byte) : Byte :=
  (b &&& ~~~(mask width <<< fieldShift bit width)) ||| (v <<< fieldShift bit width)

/-- `read_bits(B, byte, bit, width)` (R160). -/
def readBits (B : List Byte) (byte bit width : Nat) : Byte := readField (byteAt B byte) bit width

/-- `write_bits(B, byte, bit, width, v)` (R160). -/
def writeBits (B : List Byte) (byte bit width : Nat) (v : Byte) : List Byte :=
  B.set byte (writeField (byteAt B byte) bit width v)

/-- `merge(old, new, m)` (R167). -/
def merge (old new m : Byte) : Byte := (old &&& ~~~m) ||| (new &&& m)

/-- `le(B)`: "The byte at the lowest offset is least significant" (R13). -/
def le : List Byte → Nat
  | [] => 0
  | b :: bs => b.toNat + 256 * le bs

/-- `le_bytes(v, n)`, the inverse of `le` (R13). -/
def leBytes (v : Nat) : Nat → List Byte
  | 0 => []
  | n + 1 => BitVec.ofNat 8 v :: leBytes (v / 256) n

/-- `sum8(B)`, the sum of the bytes modulo 256 (R240). -/
def sum8 : List Byte → Byte
  | [] => 0
  | b :: bs => b + sum8 bs

/-- `ck(P) = (256 - sum8(P)) mod 256` (R240). -/
def ck (P : List Byte) : Byte := 0 - sum8 P

/-- `B[off .. off+n-1]` of a byte sequence (R12). -/
def subseq (B : List Byte) (off n : Nat) : List Byte := (B.drop off).take n

/-- A byte sequence with `new` in place of the bytes from `off` on (R15). -/
def replaceAt : List Byte → Nat → List Byte → List Byte
  | B, _, [] => B
  | B, off, b :: bs => replaceAt (B.set off b) (off + 1) bs

/-! ### Keyed fields (R210) -/

/-- `n`, how many bytes a keyed field touches. -/
def keyLength (bit width : Nat) : Nat := (bit - 1 + width + 7) / 8

/-- `e`, the end field position in the last byte. -/
def keyEnd (bit width : Nat) : Nat := (bit - 1 + width - 1) % 8 + 1

/-- `mF`, which "clears bits strictly left of the start". -/
def keyFirstMask (bit : Nat) : Byte := 0xFF#8 >>> (bit - 1)

/-- `mL`, which "clears bits strictly right of the end". -/
def keyLastMask (bit width : Nat) : Byte := 0xFF#8 <<< (8 - keyEnd bit width)

/-- `M`, the masks of the field's bytes. -/
def keyMasks (bit width : Nat) : List Byte :=
  if keyLength bit width = 1 then [keyFirstMask bit &&& keyLastMask bit width]
  else keyFirstMask bit :: List.replicate (keyLength bit width - 2) 0xFF ++ [keyLastMask bit width]

/-- `kmask(B)`. -/
def kmask (bit width : Nat) (B : List Byte) : List Byte := List.zipWith (· &&& ·) B (keyMasks bit width)

/-- The keyed encoder's bytes: the first and the last merged under their mask, "copying middle bytes verbatim"
(R213). `i` counts the bytes already passed, `n` is the field's length. -/
def mergeKey (n : Nat) : Nat → List Byte → List Byte → List Byte → List Byte
  | i, o :: os, k :: ks, m :: ms =>
    (if i = 0 ∨ i = n - 1 then merge o k m else k) :: mergeKey n (i + 1) os ks ms
  | _, os, _, _ => os

end Sys2Proof
end

