-- ==== Sys2Proof/Machine/Configuration.lean ====
section
/-! DEFINITION. The constants derived from a configuration (00_scope.md R8), the supplied functions it names, and its
numbered checks (60_exceptions.md R356). -/

namespace Sys2Proof

/-! ### Derived constants (R8) -/

/-- `FRAME_MAX = 258`, "the largest total size a one-byte length field allows" (R8). -/
def frameMax : Nat := 258

/-- `POLL_SIZE = POLL_LEN_FIELD + 3` (R8). -/
def Config.pollSize (c : Config) : Nat := c.pollLenField.toNat + 3

/-- `INIT_SIZE = INIT_LEN_FIELD + 3` (R8). -/
def Config.initSize (c : Config) : Nat := c.initLenField.toNat + 3

/-- `CMD_N = CMD_LEN_FIELD - 2`, "the size of the pending command buffer in bytes" (R8). -/
def Config.cmdN (c : Config) : Nat := c.cmdLenField.toNat - 2

/-- `CMD_SIZE = CMD_LEN_FIELD + 3` (R8). -/
def Config.cmdSize (c : Config) : Nat := c.cmdLenField.toNat + 3

/-- `N_SLOTS` (R6). -/
def Config.nSlots (c : Config) : Nat := c.slots.length

/-! ### The functions a configuration names -/

/-- `EXTRA_SUPPORT_PRED(V)` (R6, D29). DESIGN CHOICE (log 13): a named bit that is not there, its byte beyond the data
or its field position outside the positions 1 to 8 of R10, reads as not shown. -/
def supportShown (p : SupportPred) (V : List Byte) : Bool :=
  match p with
  | .dataBit byte bit =>
    decide (byte < V.length) && decide (1 ≤ bit) && decide (bit ≤ 8) && readBits V byte bit 1 == 1
  | .supplied id => Config.suppliedPred id V

/-- `DEC_FN(V)` (R218). -/
def decFnApply (f : DecFn) (V : List Byte) : Option Value :=
  match f with
  | .sumOfBytes i j =>
    if i < V.length ∧ j < V.length then
      some (.num (((byteAt V i).toNat + (byteAt V j).toNat : Nat) : Num))
    else none
  | .supplied id => Config.suppliedDec id V

/-- `ENC_FN(V, v)` (R219). A `lengthKeeping` function's result is as long as `V` (R45). -/
def encFnApply (f : EncFn) (V : List Byte) (v : Value) : List Byte :=
  match f with
  | .lengthKeeping id => (List.range V.length).map (byteAt (Config.suppliedEnc id V v))
  | .unchecked id => Config.suppliedEnc id V v

/-- "`ENC_FN`, if present, returns a sequence as long as its input" (R356, log 12). -/
def encFnKeepsLength : Option EncFn → Bool
  | none => true
  | some (.lengthKeeping _) => true
  | some (.unchecked _) => false

/-! ### The arithmetic of `CFG.NUM` (R202): exact, or the supplied model's own (log 11) -/

/-- `trunc` of the exact rationals, "toward zero" (R202). -/
def truncNum (x : Num) : Int := x.num.tdiv x.den

/-- A natural number as a number of the model. -/
def NumModel.ofNat : NumModel → Nat → Num
  | .exactRationals, n => (n : Num)
  | .supplied id, n => Config.suppliedOfNat id n

/-- `+` -/
def NumModel.add : NumModel → Num → Num → Num
  | .exactRationals, a, b => a + b
  | .supplied id, a, b => Config.suppliedAdd id a b

/-- `-` -/
def NumModel.sub : NumModel → Num → Num → Num
  | .exactRationals, a, b => a - b
  | .supplied id, a, b => Config.suppliedSub id a b

/-- `*` -/
def NumModel.mul : NumModel → Num → Num → Num
  | .exactRationals, a, b => a * b
  | .supplied id, a, b => Config.suppliedMul id a b

/-- `/` -/
def NumModel.div : NumModel → Num → Num → Num
  | .exactRationals, a, b => a / b
  | .supplied id, a, b => Config.suppliedDiv id a b

/-- `trunc` -/
def NumModel.trunc : NumModel → Num → Int
  | .exactRationals, a => truncNum a
  | .supplied id, a => Config.suppliedTrunc id a

/-- `(raw + OFF) * MUL`, "arithmetic of CFG.NUM" (R200). -/
def NumModel.scaleUp (m : NumModel) (mul off : Num) (raw : Nat) : Num := m.mul (m.add (m.ofNat raw) off) mul

/-- `trunc(q / MUL - OFF)`, "arithmetic of CFG.NUM" (R201). -/
def NumModel.scaleDown (m : NumModel) (mul off q : Num) : Int := m.trunc (m.sub (m.div q mul) off)

/-! ### Slots -/

/-- `KIND` of a slot (R45). -/
def Slot.kind (d : Slot) : Kind :=
  match d.codec with
  | .tri => .tri
  | .scaled _ _ => .scaled
  | .index _ => .index
  | .keyed _ => .keyed
  | .custom _ _ => .custom

/-- The required size `req` of a slot's view (43_codec.md R190). -/
def Slot.req (d : Slot) : Nat :=
  match d.codec with
  | .tri => d.byte + 1
  | .scaled _ _ => d.byte + d.width / 8
  | .index _ => d.byte + 1
  | .keyed _ => d.byte + keyLength d.bit d.width
  | .custom _ _ => 0

/-- No two entries are equal. -/
def allDistinct {α : Type} [DecidableEq α] (l : List α) : Bool := decide l.Nodup

/-- The check of a slot's kind (R356). `INDEX` also asks `1 ≤ BIT`, which R45's type of `BIT` says (log 19). -/
def Slot.kindOk (c : Config) (d : Slot) : Bool :=
  match d.codec with
  | .tri => decide (1 ≤ d.bit) && decide (d.bit ≤ 7) && d.width == 2
  | .scaled mul _ => (d.width == 8 || d.width == 16 || d.width == 24 || d.width == 32) && d.bit == 1 && mul != 0
  | .index table =>
    decide (1 ≤ d.width) && decide (d.width ≤ 8) && decide (1 ≤ d.bit) && decide (d.bit + d.width - 1 ≤ 8) &&
      decide (1 ≤ table.length) && decide (table.length ≤ 2 ^ d.width - 1) &&
      (d.mode == .r || allDistinct table)
  | .keyed map =>
    decide (1 ≤ d.bit) && decide (d.bit ≤ 8) && decide (1 ≤ d.width) &&
      decide (keyLength d.bit d.width ≤ c.keyMaxBytes) &&
      map.all (fun e => e.1.length == keyLength d.bit d.width && kmask d.bit d.width e.1 == e.1) &&
      allDistinct (map.map (·.1)) && (d.mode == .r || allDistinct (map.map (·.2)))
  | .custom _ enc => encFnKeepsLength enc

/-- The checks of one slot (R356): its kind's, and "for `MODE` W or RW, the field lies within `CMD_N` bytes". That
`CAT` and `MODE` are legal is their type. -/
def Slot.ok (c : Config) (d : Slot) : Bool :=
  Slot.kindOk c d && (d.mode == .r || decide (d.req ≤ c.cmdN))

/-- The least `s`, counted from `s`, whose slot fails its check. -/
def firstBadSlot (c : Config) : Nat → List Slot → Option Nat
  | _, [] => none
  | s, d :: ds => if Slot.ok c d then firstBadSlot c (s + 1) ds else some s

/-! ### The numbered checks (R356) -/

/-- Check 4 of one length field: it lies in `MIN_PACKET_SIZE + 1 .. 255`. -/
def lengthFieldOk (c : Config) (L : Byte) : Bool := decide (c.minPacketSize + 1 ≤ L.toNat)

/-- The number of the first failing check, `100 + s` for slot `s` (R356); `none` for a well-formed configuration.
Check 8, that `EXTRA_SUPPORT_PRED` is a total function, is its type. -/
def Config.firstFailing (c : Config) : Option Nat :=
  if ¬ frameMax ≤ c.rbCap.toNat then some 1
  else if ¬ (1 ≤ c.rxChunkMax ∧ c.rxChunkMax ≤ c.rbCap.toNat) then some 2
  else if ¬ (1 ≤ c.minPacketSize ∧ c.minPacketSize ≤ 254) then some 3
  else if ¬ (lengthFieldOk c c.initLenField ∧ lengthFieldOk c c.pollLenField ∧ lengthFieldOk c c.cmdLenField ∧
      3 ≤ c.cmdLenField.toNat) then some 4
  else if ¬ (c.initPayload.length = c.initLenField.toNat - 2) then some 5
  else if ¬ (c.prePoll ∈ c.rxPreambles ∧ c.preCmd ∈ c.rxPreambles ∧ c.preInit ∈ c.rxPreambles ∧
      c.catInit ≠ c.catStd ∧ c.catInit ≠ c.catExtra ∧ c.catStd ≠ c.catExtra) then some 6
  else if ¬ c.nSlots ≤ 256 then some 7
  else (firstBadSlot c 0 c.slots).map (100 + ·)

/-- A configuration that passes every check of R356. -/
def Config.wf (c : Config) : Bool := c.firstFailing.isNone

end Sys2Proof
end

