-- ==== Sys2Proof/Machine/Memory.lean ====
section
/-! DEFINITION. Reading and writing the byte arrays FB, TXB and PCB (20_memory.md R70, 00_scope.md R15), and the one
form they are kept in: offsets strictly rising, no entry equal to what an unlisted offset reads as. -/

namespace Sys2Proof

/-- What an offset that an array does not list reads as. PCB resets to `zeros(CMD_N)` (R380); for FB and TXB DESIGN
CHOICE (log 3): their bytes at reset are "unreachable" (R381). -/
def Memory.unlisted : Byte := 0

/-- One byte of an array. -/
def Memory.read : Memory → Nat → Byte
  | [], _ => Memory.unlisted
  | (k, b) :: rest, a => if k = a then b else Memory.read rest a

/-- Lists a byte at its place among the rising offsets, in place of the entry the offset may have. -/
def Memory.insert : Memory → Nat → Byte → Memory
  | [], a, b => [(a, b)]
  | (k, c) :: rest, a, b =>
    if a < k then (a, b) :: (k, c) :: rest
    else if a = k then (a, b) :: rest
    else (k, c) :: Memory.insert rest a b

/-- Writes one byte of an array. Writing what an unlisted offset reads as removes the entry. -/
def Memory.write (m : Memory) (a : Nat) (b : Byte) : Memory :=
  if b = Memory.unlisted then m.filter (fun e => e.1 != a) else Memory.insert m a b

/-- `MemWrite` of R15: replaces the bytes from `off` on with the sequence. -/
def Memory.writeAll : Memory → Nat → List Byte → Memory
  | m, _, [] => m
  | m, off, b :: bs => Memory.writeAll (Memory.write m off b) (off + 1) bs

/-- `MemRead` of R15: the `n` bytes from `off` on. -/
def Memory.slice (m : Memory) (off n : Nat) : List Byte :=
  (List.range n).map (fun i => Memory.read m (off + i))

/-- An offset is above a bound (none: no bound). -/
def Memory.isAbove : Option Nat → Nat → Bool
  | none, _ => true
  | some l, k => decide (l < k)

/-- Every entry's offset is above `lo` (none: no bound) and rising, and no entry is the unlisted byte. -/
def Memory.wfAbove : Option Nat → Memory → Bool
  | _, [] => true
  | lo, (k, b) :: rest =>
    Memory.isAbove lo k && b != Memory.unlisted && Memory.wfAbove (some k) rest

/-- The canonical form: equal arrays are equal data. -/
def Memory.wf (m : Memory) : Bool := Memory.wfAbove none m

/-- The array lists no offset at or above its size (R70: FB and TXB 0..257, PCB 0..`CMD_N`-1). -/
def Memory.fits (size : Nat) (m : Memory) : Bool := m.all (fun e => decide (e.1 < size))

end Sys2Proof
end

