-- ==== Sys2Proof/Machine/State.lean ====
section
/-! DEFINITION. The state of HPFE as plain data: the record S of 10_state.md R32, the configuration it runs under
(00_scope.md R6, log 1), the ports and the environment as R55 says a model keeps them, and reset
(70_reset_and_hazards.md R380). -/

namespace Sys2Proof.Machine

/-- What stops the machine. HPFE has nothing that does: each of its own faults (60_exceptions.md R341) is taken by
fault entry (R346), which is a next state, and every access outside an array is one of them (R77). So the type has no
constructor; no meaning raises it. -/
inductive Fault
deriving DecidableEq, Repr

/-- Why an instruction has no meaning. -/
inductive Refusal where
  /-- Raised by `exec` alone, for an instruction that the model gives no meaning yet. Safe: the machine stops. No arm
  of this model raises it. -/
  | notModelled (mnemonic : String)
deriving DecidableEq, Repr

/-- The two transports (R52, R53). -/
inductive Port where
  /-- `PRI`, the heat-pump transport -/
  | pri
  /-- `EXT`, the external controller's transport -/
  | ext
deriving DecidableEq, Repr

/-- The data port `D` (30_encoding.md R107). -/
inductive Data where
  /-- no operand -/
  | empty
  /-- an unsigned integer -/
  | nat (n : Nat)
  /-- a byte sequence -/
  | bytes (b : List Byte)
  /-- a value (R18) -/
  | value (v : Value)
deriving DecidableEq, Repr

/-- `RESULT` of a response (30_encoding.md R108). -/
inductive Result where
  /-- empty -/
  | empty
  /-- a byte -/
  | byte (b : Byte)
  /-- a 32-bit unsigned integer -/
  | word (w : Word)
  /-- a byte sequence -/
  | bytes (b : List Byte)
  /-- a boolean -/
  | bool (b : Bool)
  /-- a value (R18) -/
  | value (v : Value)
  /-- a category class -/
  | cls (c : FrameClass)
deriving DecidableEq, Repr

/-- A response `(STATUS, RESULT)` (30_encoding.md R108). -/
structure Response where
  status : Status
  result : Result
deriving DecidableEq, Repr

/-- An event of the event output (10_state.md R54). -/
inductive Event where
  /-- `PUBLISH(s, v)` (43_codec.md R226) -/
  | publish (slot : Nat) (v : Value)
  /-- `LOG(level, code)` (60_exceptions.md R358) -/
  | log (level : LogLevel) (code : LogCode)
deriving DecidableEq, Repr

/-- What the host and the environment give the machine, one entry a step (R55, R294, log 4). -/
inductive Input where
  /-- a command word with its data operand (R100, R107) -/
  | command (word : Word) (d : Data)
  /-- the header word of a frame HPFE sends (rows FRAME_TX_*, log 7) -/
  | txFrame (header : Word)
  /-- a frame received on PRI: its header word and the bytes after the header (rows FRAME_RX_*, log 8) -/
  | rxFrame (header : Word) (rest : List Byte)
  /-- bytes arrive at a transport (R55) -/
  | arrive (port : Port) (bytes : List Byte)
  /-- reset, "which applies `CFG`" (R380, log 15) -/
  | reset (c : Config)
deriving DecidableEq, Repr

/-- The state. The fields up to `faultInfo` are the record S of R32, after the configuration it runs under. -/
structure State where
  /-- `CFG` (R6): no operation writes it (R7); a reset applies it (R380, log 1) -/
  cfg : Config
  /-- `RB_Q` (R33), the oldest unread byte first -/
  rbQ : List Byte
  /-- `FB`, 258 bytes (R34) -/
  fb : Memory
  /-- `FB_LEN`, 0..258 (R34) -/
  fbLen : Nat
  /-- `FB_CAT` (R34) -/
  fbCat : FrameClass
  /-- `TXB`, 258 bytes (R35) -/
  txb : Memory
  /-- `TXB_LEN`, 0..258 (R35) -/
  txbLen : Nat
  /-- `PCB`, `CMD_N` bytes (R36) -/
  pcb : Memory
  /-- `DIRTY` (R36) -/
  dirty : Bool
  /-- `TXN_STATE` (R37) -/
  txnState : TxnState
  /-- `TXN_TMR` (R38) -/
  txnTmr : Bool
  /-- `SETTLE_TMR` (R39) -/
  settleTmr : Bool
  /-- `PSTART_TMR` (R40) -/
  pstartTmr : Bool
  /-- `POLL_DIS` (R41) -/
  pollDis : Bool
  /-- `POLL_CNT` (R41) -/
  pollCnt : BitVec 32
  /-- `EXTRA_SUP` (R42) -/
  extraSup : Bool
  /-- `PROXY_ACTIVE` (R43) -/
  proxyActive : Bool
  /-- `EXT_ATTACHED` (R44) -/
  extAttached : Bool
  /-- `DEDUP[s]`, one cell per slot (R46) -/
  dedup : List (Option Value)
  /-- `FAULTED` (R47) -/
  faulted : Bool
  /-- `FAULT_CODE` (R47) -/
  faultCode : BitVec 8
  /-- `FAULT_INFO` (R47) -/
  faultInfo : BitVec 32
  /-- `PRI.rx`, unread input (R55) -/
  priRx : List Byte
  /-- `EXT.rx`, unread input (R55) -/
  extRx : List Byte
  /-- `PRI.tx`, written output (R55) -/
  priTx : List Byte
  /-- `EXT.tx`, written output (R55) -/
  extTx : List Byte
  /-- the event output (R54), oldest first -/
  events : List Event
  /-- the data port `D` (R107) -/
  data : Data
  /-- the response port (R108): the response of the last command -/
  resp : Option Response
  /-- what the host and the environment will give, in order (R55, log 4) -/
  inputs : List Input
  /-- the model's own field: how many frames have been dispatched, which the free order is drawn with (log 10) -/
  dispatchCount : Nat
deriving DecidableEq, Repr

/-- Reset under the configuration `c` (R380): every element of S at its reset value "whatever its value before", the
fault latch as R357 says when `c` fails a check of R356, the transports, the traces and the inputs not touched
(log 15). DESIGN CHOICE (log 23): R357 names the latch alone, so a failing check emits no `F_FAULT` log. -/
def State.applyReset (c : Config) (s : State) : State :=
  { cfg := c, rbQ := [], fb := [], fbLen := 0, fbCat := .none, txb := [], txbLen := 0, pcb := [], dirty := false,
    txnState := .idle, txnTmr := false, settleTmr := true, pstartTmr := false, pollDis := true, pollCnt := 0,
    extraSup := false, proxyActive := false, extAttached := c.extConfigured,
    dedup := List.replicate c.nSlots none,
    faulted := c.firstFailing.isSome,
    faultCode := (match c.firstFailing with
      | none => 0
      | some _ => FaultCode.config.code),
    faultInfo := (match c.firstFailing with
      | none => 0
      | some k => BitVec.ofNat 32 k),
    priRx := s.priRx, extRx := s.extRx, priTx := s.priTx, extTx := s.extTx, events := s.events,
    data := .empty, resp := none, inputs := s.inputs, dispatchCount := s.dispatchCount }

/-- Before the first reset: nothing on the transports, nothing asked of the machine (log 16). The elements of S are
what the reset that follows sets. -/
def State.powerOn (c : Config) : State :=
  { cfg := c, rbQ := [], fb := [], fbLen := 0, fbCat := .none, txb := [], txbLen := 0, pcb := [], dirty := false,
    txnState := .idle, txnTmr := false, settleTmr := false, pstartTmr := false, pollDis := false, pollCnt := 0,
    extraSup := false, proxyActive := false, extAttached := false, dedup := [], faulted := false, faultCode := 0,
    faultInfo := 0, priRx := [], extRx := [], priTx := [], extTx := [], events := [], data := .empty, resp := none,
    inputs := [], dispatchCount := 0 }

/-- The machine right after the first reset, under any configuration. -/
def State.resetWith (c : Config) : State := State.applyReset c (State.powerOn c)

/-- The machine right after reset. Its configuration is VC, DESIGN CHOICE (log 2). -/
def State.reset : State := State.resetWith Config.vc

end Sys2Proof.Machine
end

