-- ==== Sys2Proof/Machine/Ops.lean ====
section
/-! DEFINITION. The operations every meaning is made of: the response, the event output, the transports, fault entry,
the frame of one command, the transaction start and stop, and the notification of a slot's order. -/

namespace Sys2Proof.Machine

/-! ### Responses and events -/

/-- `return r` of R17: the response goes to the response port (30_encoding.md R108). -/
def State.respond (s : State) (r : Response) : State := { s with resp := some r }

/-- `emit` of R17: events go to the end of the event output (R54). -/
def State.emit (s : State) (es : List Event) : State := { s with events := s.events ++ es }

/-- `log(level, code)` of R17, at the level R358 gives the code. -/
def logEvent (c : LogCode) : Event := .log c.level c

/-! ### Taking a fault, and the lack of a return from one -/

/-- Fault entry, `raise Fault(code, info)` (60_exceptions.md R346): the latch is set, `F_FAULT` is logged and the
response is `(FAULT, code)`. The state given is the one before the command, so every write of the command is
discarded. No state is saved and no control transfer is made. There is no return from a fault (R348): "Software cannot
clear `S.FAULTED`", and the one way out is `State.applyReset` (R380). -/
def State.enterFault (s : State) (c : FaultCode) (info : Nat) : State :=
  { s with
    faulted := true
    faultCode := c.code
    faultInfo := BitVec.ofNat 32 info
    events := s.events ++ [logEvent .fFault]
    resp := some ⟨.fault, .byte c.code⟩ }

/-- What a command answers while `S.FAULTED = 1`: `(FAULT, S.FAULT_CODE)`, and nothing else (R347). -/
def State.respondFaulted (s : State) : State := s.respond ⟨.fault, .byte s.faultCode⟩

/-- How one operation's pseudocode ends (R17): with a response and the state it leaves, or by raising a fault. -/
inductive Effect where
  /-- `return r`, leaving the state -/
  | done (r : Response) (s : State)
  /-- `raise Fault(code, info)`: it holds no state, since "No state written earlier in the same operation is kept" -/
  | raise (c : FaultCode) (info : Nat)

/-- An operation that raises no fault. -/
def Effect.ofPair (p : Response × State) : Effect := .done p.1 p.2

/-- The end of an operation begun in `s` (R17, R346). -/
def State.perform (s : State) : Effect → State
  | .done r t => t.respond r
  | .raise c info => s.enterFault c info

/-- One command (30_encoding.md R113): (1) `S.FAULTED` (R347); (3) the data port's type, `Fault(DATA_RANGE, OPC)`
(R107); (4) the operation. Step (2), the word itself, is the decoder's. `takes` reads the operand off the data port. -/
def command {α : Type} (i : Instr) (takes : Data → Option α) (body : α → Effect) (s : State) :
    Host.Outcome State Fault Refusal :=
  if s.faulted then .next s.respondFaulted
  else
    match takes s.data with
    | none => .next (s.enterFault .dataRange (opcodeOf i).toNat)
    | some d => .next (s.perform (body d))

/-- A word that is no command: `Fault(ILLEGAL_CMD, cmd)` (R112), unless the engine is faulted (R347). -/
def illegalCommand (w : Word) (s : State) : State :=
  if s.faulted then s.respondFaulted else s.enterFault .illegalCmd w.toNat

/-! ### Transports (00_scope.md R16) -/

/-- `Avail(PRI)` -/
def State.availPri (s : State) : Nat := s.priRx.length

/-- `Avail(EXT)` -/
def State.availExt (s : State) : Nat := s.extRx.length

/-- The state after `RxRead(PRI, n)`; the bytes read are `s.priRx.take n`. -/
def State.dropPri (s : State) (n : Nat) : State := { s with priRx := s.priRx.drop n }

/-- The state after `RxRead(EXT, n)`; the bytes read are `s.extRx.take n`. -/
def State.dropExt (s : State) (n : Nat) : State := { s with extRx := s.extRx.drop n }

/-- `TxWrite(PRI, B)` -/
def State.txPri (s : State) (B : List Byte) : State := { s with priTx := s.priTx ++ B }

/-- `TxWrite(EXT, B)` -/
def State.txExt (s : State) (B : List Byte) : State := { s with extTx := s.extTx ++ B }

/-- Bytes arrive at a transport (R55). The engine does nothing (R361), faulted or not (R347). -/
def State.arrive (s : State) (p : Port) (B : List Byte) : State :=
  match p with
  | .pri => { s with priRx := s.priRx ++ B }
  | .ext => { s with extRx := s.extRx ++ B }

/-! ### Transactions (45_arbiter.md R280, R283) -/

/-- The state `start(k)` leaves when the test passes: the transaction open and its timeout armed (R280). -/
def State.openTxn (s : State) (k : TxnState) : State := { s with txnState := k, txnTmr := true }

/-- The state a refused `start(k)` leaves: an `E_TXN_BUSY` log and no other change (R280). -/
def State.refuseTxn (s : State) : State := s.emit [logEvent .eTxnBusy]

/-- `stop()` (R283). -/
def State.closeTxn (s : State) : State := { s with txnState := .idle, txnTmr := false }

/-- The two writes of TXN_START_EXT beside the start: polling frozen, proxying on (R282). -/
def State.freezePolls (s : State) : State := { s with proxyActive := true, pollDis := true }

/-! ### The order of notifications (45_arbiter.md R298) -/

/-- Puts a slot before the first one of higher rank. -/
def insertByRank (rank : Nat → Nat) (a : Nat) : List Nat → List Nat
  | [] => [a]
  | b :: bs => if rank a ≤ rank b then a :: b :: bs else b :: insertByRank rank a bs

/-- `perm(P)` of R297: the slots by their rank. The rank is the free value `Config.notifyRank`, so the order is any
(log 10). -/
def arrange (rank : Nat → Nat) : List Nat → List Nat
  | [] => []
  | a :: as => insertByRank rank a (arrange rank as)

end Sys2Proof.Machine
end

