-- ==== Sys2Proof/Machine/Operands.lean ====
section
/-! DEFINITION. Every operand form: the data port (30_encoding.md R107), the four views (20_memory.md R71, R72) and
the slot operand (43_codec.md R191, R192). -/

namespace Sys2Proof.Machine

/-! ### The data port (R107) -/

/-- "every other operation | empty" -/
def takesNothing : Data → Option Unit
  | .empty => some ()
  | .nat _ | .bytes _ | .value _ => none

/-- WR_BITS, WR_BYTES: an unsigned integer -/
def takesNat : Data → Option Nat
  | .nat n => some n
  | .empty | .bytes _ | .value _ => none

/-- RB_PUSH, WR_ARRAY: "a byte sequence of length exactly" `n` -/
def takesBytes (n : Nat) : Data → Option (List Byte)
  | .bytes b => if b.length = n then some b else none
  | .empty | .nat _ | .value _ => none

/-- ENC_*, SLOT_WRITE: a value (R18) -/
def takesValue : Data → Option Value
  | .value v => some v
  | .empty | .nat _ | .bytes _ => none

/-! ### Views -/

/-- `view(VIEW)` (R71). -/
def State.view (s : State) : View → List Byte
  | .v0 => s.fb.slice 4 (s.fbLen - 5)
  | .v1 => s.pcb.slice 0 s.cfg.cmdN
  | .v2 => s.txb.slice 0 s.txbLen
  | .v3 => s.fb.slice 0 s.fbLen

/-- "A command that writes a view ... with `VIEW` 0 or 3 raises `Fault(VIEW_RO, VIEW)`" (R72). -/
def readOnly : View → Bool
  | .v0 | .v3 => true
  | .v1 | .v2 => false

/-- The number of a view, the `FAULT_INFO` of `VIEW_RO` (R341). -/
def viewNumber (v : View) : Nat := (viewBits v).toNat

/-- `MemWrite(view(VIEW), off, n, B)` (R15) at a writable view: `V1` is PCB from its first byte, `V2` is TXB from its
first byte (R71). A read-only view is never written (R72). -/
def State.store (s : State) (v : View) (off : Nat) (B : List Byte) : State :=
  match v with
  | .v1 => { s with pcb := s.pcb.writeAll off B }
  | .v2 => { s with txb := s.txb.writeAll off B }
  | .v0 | .v3 => s

/-- The check every command that writes a view makes first (R72, 42_bitfield.md R162, R164, R166). -/
def whenWritable (v : View) (body : Effect) : Effect :=
  if readOnly v then .raise .viewRo (viewNumber v) else body

/-! ### Slots -/

/-- The first check of R191, R226, R227: `SLOT_RANGE`. -/
def withSlot (s : State) (slot : BitVec 8) (body : Slot → Effect) : Effect :=
  match s.cfg.slots[slot.toNat]? with
  | none => .raise .slotRange slot.toNat
  | some d => body d

/-- The second check of R191: `SLOT_KIND`. -/
def whenKind (k : Kind) (slot : BitVec 8) (d : Slot) (body : Effect) : Effect :=
  if d.kind = k then body else .raise .slotKind slot.toNat

/-- Which values an encode of a kind takes (R192). -/
def kindTakes : Kind → Value → Bool
  | .tri, .bool _ => true
  | .scaled, .num _ => true
  | .index, .str _ => true
  | .keyed, .str _ => true
  | .keyed, .undef => true
  | .custom, _ => true
  | .tri, .num _ | .tri, .str _ | .tri, .undef => false
  | .scaled, .bool _ | .scaled, .str _ | .scaled, .undef => false
  | .index, .bool _ | .index, .num _ | .index, .undef => false
  | .keyed, .bool _ | .keyed, .num _ => false

/-- The last check of R191: `DATA_RANGE` for a value of the wrong constructor. -/
def whenTakes (slot : BitVec 8) (d : Slot) (v : Value) (body : Effect) : Effect :=
  if kindTakes d.kind v then body else .raise .dataRange slot.toNat

end Sys2Proof.Machine
end

