-- ==== Sys2Proof/Machine/Flags.lean ====
section
/-! DEFINITION. The status flags as words: the four status words RD_STATUS reads (10_state.md R48). HPFE has no
arithmetic condition codes (R50). -/

namespace Sys2Proof.Machine

/-- STATUS, `SEL = 0`, most significant field first (R48). -/
def State.statusWord (s : State) : Word :=
  (0 : BitVec 5) ++ s.fbCat.code ++ s.faultCode ++ (0 : BitVec 5) ++ BitVec.ofBool s.faulted ++
    BitVec.ofBool s.dirty ++ BitVec.ofBool s.extAttached ++ BitVec.ofBool s.proxyActive ++
    BitVec.ofBool s.extraSup ++ BitVec.ofBool s.pollDis ++ BitVec.ofBool s.pstartTmr ++
    BitVec.ofBool s.settleTmr ++ BitVec.ofBool s.txnTmr ++ s.txnState.code

/-- `SEL = 2`: `zext_32(len(S.RB_Q)) | (S.FB_LEN << 16)` (45_arbiter.md R312). -/
def State.lengthsWord (s : State) : Word :=
  BitVec.ofNat 32 s.rbQ.length ||| (BitVec.ofNat 32 s.fbLen <<< 16)

/-- The status word `SEL` selects (R48, R312). -/
def State.selectedWord (s : State) : StatusSel → Word
  | .status => s.statusWord
  | .pollCount => s.pollCnt
  | .lengths => s.lengthsWord
  | .faultInfo => s.faultInfo

end Sys2Proof.Machine
end

