-- ==== Sys2Proof/Machine/BitField.lean ====
section
/-! DEFINITION. The bit-field primitives (42_bitfield.md R161 to R166). Each checks in the order its pseudocode
gives. The `FAULT_INFO` of `FIELD_SHAPE` is the command word, which is the instruction's own encoding. -/

namespace Sys2Proof.Machine

/-- RD_BITS (R161). -/
def execRdBits (v : View) (off : BitVec 9) (bit : BitVec 4) (w : BitVec 6) (s : State) :
    Host.Outcome State Fault Refusal :=
  command (.rdBits v off bit w) takesNothing
    (fun _ =>
      if ¬ wellShaped bit.toNat w.toNat then .raise .fieldShape (encode (.rdBits v off bit w)).toNat
      else if off.toNat + 1 > (s.view v).length then .raise .viewBounds off.toNat
      else .done ⟨.ok, .word ((readBits (s.view v) off.toNat bit.toNat w.toNat).setWidth 32)⟩ s) s

/-- WR_BITS (R162). -/
def execWrBits (v : View) (off : BitVec 9) (bit : BitVec 4) (w : BitVec 6) (s : State) :
    Host.Outcome State Fault Refusal :=
  command (.wrBits v off bit w) takesNat
    (fun D =>
      whenWritable v
        (if ¬ wellShaped bit.toNat w.toNat then .raise .fieldShape (encode (.wrBits v off bit w)).toNat
        else if off.toNat + 1 > (s.view v).length then .raise .viewBounds off.toNat
        else if D ≥ 2 ^ w.toNat then .raise .dataRange D
        else
          .done ⟨.ok, .empty⟩
            (s.store v off.toNat
              [writeField (byteAt (s.view v) off.toNat) bit.toNat w.toNat (BitVec.ofNat 8 D)]))) s

/-- RD_BYTES (R163). -/
def execRdBytes (v : View) (off : BitVec 9) (w : BitVec 6) (s : State) : Host.Outcome State Fault Refusal :=
  command (.rdBytes v off w) takesNothing
    (fun _ =>
      if ¬ (1 ≤ w.toNat ∧ w.toNat ≤ 4) then .raise .fieldShape (encode (.rdBytes v off w)).toNat
      else if off.toNat + w.toNat > (s.view v).length then .raise .viewBounds off.toNat
      else .done ⟨.ok, .word (BitVec.ofNat 32 (le (subseq (s.view v) off.toNat w.toNat)))⟩ s) s

/-- WR_BYTES (R164). -/
def execWrBytes (v : View) (off : BitVec 9) (w : BitVec 6) (s : State) : Host.Outcome State Fault Refusal :=
  command (.wrBytes v off w) takesNat
    (fun D =>
      whenWritable v
        (if ¬ (1 ≤ w.toNat ∧ w.toNat ≤ 4) then .raise .fieldShape (encode (.wrBytes v off w)).toNat
        else if off.toNat + w.toNat > (s.view v).length then .raise .viewBounds off.toNat
        else if D ≥ 2 ^ (8 * w.toNat) then .raise .dataRange D
        else .done ⟨.ok, .empty⟩ (s.store v off.toNat (leBytes D w.toNat)))) s

/-- RD_ARRAY (R165). -/
def execRdArray (v : View) (off : BitVec 9) (w : BitVec 6) (s : State) : Host.Outcome State Fault Refusal :=
  command (.rdArray v off w) takesNothing
    (fun _ =>
      if w.toNat = 0 then .raise .fieldShape (encode (.rdArray v off w)).toNat
      else if off.toNat + w.toNat > (s.view v).length then .raise .viewBounds off.toNat
      else .done ⟨.ok, .bytes (subseq (s.view v) off.toNat w.toNat)⟩ s) s

/-- WR_ARRAY (R166): "no masking is applied". -/
def execWrArray (v : View) (off : BitVec 9) (w : BitVec 6) (s : State) : Host.Outcome State Fault Refusal :=
  command (.wrArray v off w) (takesBytes w.toNat)
    (fun D =>
      whenWritable v
        (if w.toNat = 0 then .raise .fieldShape (encode (.wrArray v off w)).toNat
        else if off.toNat + w.toNat > (s.view v).length then .raise .viewBounds off.toNat
        else .done ⟨.ok, .empty⟩ (s.store v off.toNat D))) s

end Sys2Proof.Machine
end

