-- ==== Sys2Proof/Machine/RingBuffer.lean ====
section
/-! DEFINITION. The circular byte buffer commands (41_ring_buffer.md R140 to R144). -/

namespace Sys2Proof.Machine

/-- RB_SIZE (R140). -/
def execRbSize (s : State) : Host.Outcome State Fault Refusal :=
  command .rbSize takesNothing (fun _ => .done ⟨.ok, .word (BitVec.ofNat 32 s.rbQ.length)⟩ s) s

/-- RB_PUSH (R141). -/
def execRbPush (cnt : BitVec 9) (s : State) : Host.Outcome State Fault Refusal :=
  command (.rbPush cnt) (takesBytes cnt.toNat)
    (fun D =>
      if s.rbQ.length + cnt.toNat > s.cfg.rbCap.toNat then .raise .rbOverflow cnt.toNat
      else .done ⟨.ok, .empty⟩ { s with rbQ := s.rbQ ++ D }) s

/-- RB_PEEK (R142). -/
def execRbPeek (cnt : BitVec 9) (s : State) : Host.Outcome State Fault Refusal :=
  command (.rbPeek cnt) takesNothing
    (fun _ =>
      match s.rbQ[cnt.toNat]? with
      | none => .raise .rbRange cnt.toNat
      | some b => .done ⟨.ok, .byte b⟩ s) s

/-- RB_POP (R143). -/
def execRbPop (s : State) : Host.Outcome State Fault Refusal :=
  command .rbPop takesNothing
    (fun _ =>
      match s.rbQ with
      | [] => .raise .rbUnderflow 0
      | b :: rest => .done ⟨.ok, .byte b⟩ { s with rbQ := rest }) s

/-- How many bytes stand before the first `mrk` (R144). -/
def countUntil (mrk : Byte) : List Byte → Nat
  | [] => 0
  | b :: bs => if b = mrk then 0 else countUntil mrk bs + 1

/-- RB_DISCARD_UNTIL (R144): "the marker itself is not removed". -/
def execRbDiscardUntil (mrk : Byte) (s : State) : Host.Outcome State Fault Refusal :=
  command (.rbDiscardUntil mrk) takesNothing
    (fun _ =>
      .done ⟨.ok, .word (BitVec.ofNat 32 (countUntil mrk s.rbQ))⟩
        { s with rbQ := s.rbQ.drop (countUntil mrk s.rbQ) }) s

end Sys2Proof.Machine
end

