-- ==== Sys2Proof/Machine/Frame.lean ====
section
/-! DEFINITION. The frame parser, the checksum commands and the serializer (44_frame.md R240 to R257). -/

namespace Sys2Proof.Machine

/-! ### The parser -/

/-- Step 1, align (R244): what the discarding leaves of the buffer. -/
def align (c : Config) (q : List Byte) : List Byte := q.dropWhile (fun b => !c.rxPreambles.contains b)

/-- The class of a category byte (R124, R248). -/
def classOf (c : Config) (b : Byte) : FrameClass :=
  if b = c.catInit then .init
  else if b = c.catStd then .std
  else if b = c.catExtra then .extra
  else .unknown

/-- Step 5, classify (R248): an accepted frame `F` goes into FB. -/
def acceptFrame (s : State) (F : List Byte) : State :=
  { s with
    fb := s.fb.writeAll 0 F
    fbLen := F.length
    fbCat := classOf s.cfg (byteAt F 3)
    events := s.events ++
      (if classOf s.cfg (byteAt F 3) = .unknown then [logEvent .dUnknownCat] else []) }

/-- Steps 4 and 5 (R247, R248) on the extracted frame; the buffer no longer holds its bytes. -/
def finishFrame (s : State) (F : List Byte) : Response × State :=
  if sum8 F ≠ 0 then (⟨.badChecksum, .empty⟩, s.emit [logEvent .wBadChecksum])
  else (⟨.ok, .cls (classOf s.cfg (byteAt F 3))⟩, acceptFrame s F)

/-- Steps 2 and 3 (R245, R246) on the aligned, non-empty buffer `q`. -/
def parseAligned (s : State) (q : List Byte) : Response × State :=
  if q.length < 5 then (⟨.needMore, .empty⟩, { s with rbQ := q })
  else if (byteAt q 1).toNat ≤ s.cfg.minPacketSize then
    (⟨.badLength, .empty⟩,
      { s with
        rbQ := q.drop (min s.cfg.minPacketSize q.length)
        events := s.events ++ [logEvent .wBadLength] })
  else if q.length < (byteAt q 1).toNat + 3 then (⟨.needMore, .empty⟩, { s with rbQ := q })
  else finishFrame { s with rbQ := q.drop ((byteAt q 1).toNat + 3) } (q.take ((byteAt q 1).toNat + 3))

/-- The PARSE body (R249): "runs the five parser steps once and delivers at most one frame". -/
def parseBody (s : State) : Response × State :=
  if align s.cfg s.rbQ = [] then (⟨.needMore, .empty⟩, { s with rbQ := [] })
  else parseAligned s (align s.cfg s.rbQ)

/-- PARSE (R249). -/
def execParse (s : State) : Host.Outcome State Fault Refusal :=
  command .parse takesNothing (fun _ => .ofPair (parseBody s)) s

/-! ### Checksum commands -/

/-- CK_GEN (R241). -/
def execCkGen (s : State) : Host.Outcome State Fault Refusal :=
  command .ckGen takesNothing
    (fun _ =>
      if s.txbLen < 5 then .raise .viewBounds s.txbLen
      else
        .done ⟨.ok, .byte (ck (s.txb.slice 0 (s.txbLen - 1)))⟩
          { s with txb := s.txb.write (s.txbLen - 1) (ck (s.txb.slice 0 (s.txbLen - 1))) }) s

/-- CK_CHK (R242). -/
def execCkChk (v : View) (s : State) : Host.Outcome State Fault Refusal :=
  command (.ckChk v) takesNothing (fun _ => .done ⟨.ok, .byte (sum8 (s.view v))⟩ s) s

/-! ### The serializer -/

/-- The frame `build` makes but for its checksum: preamble, length `fs - 3`, direction, category, data (R252). -/
def frameHead (c : Config) (pre cat : Byte) (data : List Byte) : List Byte :=
  pre :: BitVec.ofNat 8 (data.length + 2) :: c.dirTx :: cat :: data

/-- The frame `build` makes (R252). -/
def frameBytes (c : Config) (pre cat : Byte) (data : List Byte) : List Byte :=
  frameHead c pre cat data ++ [ck (frameHead c pre cat data)]

/-- `build(pre, cat, data)` (R252): the frame is written to TXB from offset 0. -/
def build (s : State) (pre cat : Byte) (data : List Byte) : State :=
  { s with
    txb := s.txb.writeAll 0 (frameBytes s.cfg pre cat data)
    txbLen := data.length + 5 }

/-- `zeros(n)` (R12). -/
def zeros (n : Nat) : List Byte := List.replicate n 0

/-- The SER_INIT body (R253). -/
def serInitBody (s : State) : State := build s s.cfg.preInit s.cfg.catInit s.cfg.initPayload

/-- The SER_STD body (R254). -/
def serStdBody (s : State) : State := build s s.cfg.prePoll s.cfg.catStd (zeros (s.cfg.pollLenField.toNat - 2))

/-- The SER_EXT body (R255). -/
def serExtBody (s : State) : State := build s s.cfg.prePoll s.cfg.catExtra (zeros (s.cfg.pollLenField.toNat - 2))

/-- The SER_CMD body (R256): the data is the whole of PCB. -/
def serCmdBody (s : State) : State := build s s.cfg.preCmd s.cfg.cmdCategory (s.view .v1)

/-- The TX_SEND body where a frame is built (R257): TXB is unchanged. -/
def sendTxb (s : State) : State := s.txPri (s.view .v2)

/-- SER_INIT (R253). -/
def execSerInit (s : State) : Host.Outcome State Fault Refusal :=
  command .serInit takesNothing (fun _ => .done ⟨.ok, .empty⟩ (serInitBody s)) s

/-- SER_STD (R254). -/
def execSerStd (s : State) : Host.Outcome State Fault Refusal :=
  command .serStd takesNothing (fun _ => .done ⟨.ok, .empty⟩ (serStdBody s)) s

/-- SER_EXT (R255). -/
def execSerExt (s : State) : Host.Outcome State Fault Refusal :=
  command .serExt takesNothing (fun _ => .done ⟨.ok, .empty⟩ (serExtBody s)) s

/-- SER_CMD (R256). -/
def execSerCmd (s : State) : Host.Outcome State Fault Refusal :=
  command .serCmd takesNothing (fun _ => .done ⟨.ok, .empty⟩ (serCmdBody s)) s

/-- TX_SEND (R257). -/
def execTxSend (s : State) : Host.Outcome State Fault Refusal :=
  command .txSend takesNothing
    (fun _ =>
      if s.txbLen = 0 then .done ⟨.noEffect, .empty⟩ s
      else .done ⟨.ok, .empty⟩ (sendTxb s)) s

end Sys2Proof.Machine
end

