-- ==== Sys2Proof/Machine/Codec.lean ====
section
/-! DEFINITION. The five value codecs (43_codec.md R190 to R223) as pure functions of a view's bytes, and the DEC_*
and ENC_* commands over them. -/

namespace Sys2Proof.Machine

/-- What a decode gives: a value or its absence, and the logs emitted (R222). -/
structure Decoded where
  value : Option Value
  logs : List Event
deriving DecidableEq, Repr

/-- What an encode gives (R223): the view's new bytes; no effect, with the logs emitted; or the body's own fault, whose
`FAULT_INFO` is the slot. -/
inductive Encoded where
  | written (view : List Byte)
  | noEffect (logs : List Event)
  | fails (c : FaultCode)
deriving DecidableEq, Repr

/-- "no value": `ABSENT` without a log. -/
def Decoded.absent : Decoded := ⟨none, []⟩

/-- A decoded value. -/
def Decoded.some (v : Value) : Decoded := ⟨Option.some v, []⟩

/-! ### Decoders -/

/-- The tri-state decoder (R195): `00` absent, `11` absent with a warning, `01` false, `10` true. -/
def decTri (d : Slot) (V : List Byte) : Decoded :=
  if V.length < d.byte + 1 then Decoded.absent
  else if readBits V d.byte d.bit 2 = 0 then Decoded.absent
  else if readBits V d.byte d.bit 2 = 1 then Decoded.some (.bool false)
  else if readBits V d.byte d.bit 2 = 2 then Decoded.some (.bool true)
  else ⟨none, [logEvent .wTriInvalid]⟩

/-- The scaled decoder (R200): `raw` is unsigned. -/
def decScaled (m : NumModel) (mul off : Num) (d : Slot) (V : List Byte) : Decoded :=
  if V.length < d.byte + d.width / 8 then Decoded.absent
  else Decoded.some (.num (m.scaleUp mul off (le (subseq V d.byte (d.width / 8)))))

/-- The indexed decoder (R205): 0 means "no data", an index above the table is absent with a warning. -/
def decIndex (table : List String) (d : Slot) (V : List Byte) : Decoded :=
  if V.length < d.byte + 1 then Decoded.absent
  else
    match (readBits V d.byte d.bit d.width).toNat with
    | 0 => Decoded.absent
    | i + 1 =>
      match table[i]? with
      | none => ⟨none, [logEvent .wIndexRange]⟩
      | some t => Decoded.some (.str t)

/-- The keyed decoder (R211): an unknown key decodes to `Undef` (R212). -/
def decKeyed (map : List (List Byte × String)) (d : Slot) (V : List Byte) : Decoded :=
  if V.length < d.byte + keyLength d.bit d.width then Decoded.absent
  else
    match map.find? (fun e =>
      e.1 == kmask d.bit d.width (subseq V d.byte (keyLength d.bit d.width))) with
    | none => Decoded.some .undef
    | some e => Decoded.some (.str e.2)

/-- The supplied decoder (R218); absent where none is supplied. -/
def decCustom (f : Option DecFn) (V : List Byte) : Decoded :=
  match f with
  | none => Decoded.absent
  | some g => ⟨decFnApply g V, []⟩

/-- `slot_decode(s, V)` (R222), under a `CFG.NUM`. -/
def slotDecode (m : NumModel) (d : Slot) (V : List Byte) : Decoded :=
  match d.codec with
  | .tri => decTri d V
  | .scaled mul off => decScaled m mul off d V
  | .index table => decIndex table d V
  | .keyed map => decKeyed map d V
  | .custom dec _ => decCustom dec V

/-! ### Encoders -/

/-- The tri-state encoder (R196): `01` for false, `10` for true. -/
def encTri (d : Slot) (V : List Byte) (b : Bool) : Encoded :=
  if V.length < d.byte + 1 then .noEffect []
  else .written (writeBits V d.byte d.bit 2 (if b then 2 else 1))

/-- The scaled encoder (R201): `raw = trunc(q / MUL - OFF)`, `ENC_RANGE` where it does not fit. R356 rules `MUL = 0`
out (log 21). -/
def encScaled (m : NumModel) (mul off : Num) (d : Slot) (V : List Byte) (q : Num) : Encoded :=
  if V.length < d.byte + d.width / 8 then .noEffect []
  else if m.scaleDown mul off q < 0 ∨ m.scaleDown mul off q ≥ 2 ^ (8 * (d.width / 8)) then .fails .encRange
  else .written (replaceAt V d.byte (leBytes (m.scaleDown mul off q).toNat (d.width / 8)))

/-- The indexed encoder (R206): `position + 1`; a string not in the table has no effect and a warning (D37). -/
def encIndex (table : List String) (d : Slot) (V : List Byte) (t : String) : Encoded :=
  if V.length < d.byte + 1 then .noEffect []
  else
    match table.findIdx? (fun u => u == t) with
    | none => .noEffect [logEvent .wEncUnknown]
    | some p => .written (writeBits V d.byte d.bit d.width (BitVec.ofNat 8 (p + 1)))

/-- The keyed encoder (R213): the key of the first pair with the string, merged at the field's ends. -/
def encKeyed (map : List (List Byte × String)) (d : Slot) (V : List Byte) (t : Option String) : Encoded :=
  if V.length < d.byte + keyLength d.bit d.width then .noEffect []
  else
    match t.bind (fun u => map.find? (fun e => e.2 == u)) with
    | none => .noEffect [logEvent .wEncUnknown]
    | some e =>
      .written (replaceAt V d.byte
        (mergeKey (keyLength d.bit d.width) 0 (subseq V d.byte (keyLength d.bit d.width)) e.1
          (keyMasks d.bit d.width)))

/-- The supplied encoder (R219): no effect where none is supplied, `DATA_RANGE` for a result of another length. -/
def encCustom (f : Option EncFn) (V : List Byte) (v : Value) : Encoded :=
  match f with
  | none => .noEffect []
  | some g => if (encFnApply g V v).length = V.length then .written (encFnApply g V v) else .fails .dataRange

/-- `slot_encode(s, V, v)` (R223), under a `CFG.NUM`. A value of the wrong constructor is `DATA_RANGE` (R191, R192),
which every caller has checked before. -/
def slotEncode (m : NumModel) (d : Slot) (V : List Byte) (v : Value) : Encoded :=
  match d.codec, v with
  | .tri, .bool b => encTri d V b
  | .scaled mul off, .num q => encScaled m mul off d V q
  | .index table, .str t => encIndex table d V t
  | .keyed map, .str t => encKeyed map d V (some t)
  | .keyed map, .undef => encKeyed map d V none
  | .custom _ enc, _ => encCustom enc V v
  | _, _ => .fails .dataRange

/-! ### The commands -/

/-- A decode's response: `(OK, v)` or `(ABSENT, empty)` (R195 to R218). -/
def decodeResponse (r : Decoded) : Response :=
  match r.value with
  | none => ⟨.absent, .empty⟩
  | some v => ⟨.ok, .value v⟩

/-- A DEC_* command of a kind: the checks of R191, then the body of the slot's kind. -/
def decodeSlot (k : Kind) (v : View) (slot : BitVec 8) (s : State) : Effect :=
  withSlot s slot (fun d =>
    whenKind k slot d
      (.done (decodeResponse (slotDecode s.cfg.num d (s.view v)))
        (s.emit (slotDecode s.cfg.num d (s.view v)).logs)))

/-- The end of an encode into a view (R196 to R219). -/
def encodeEffect (v : View) (slot : BitVec 8) (s : State) : Encoded → Effect
  | .written V => .done ⟨.ok, .empty⟩ (s.store v 0 V)
  | .noEffect logs => .done ⟨.noEffect, .empty⟩ (s.emit logs)
  | .fails c => .raise c slot.toNat

/-- An ENC_* command of a kind: the checks of R191 in their order, then the body of the slot's kind. -/
def encodeSlot (k : Kind) (v : View) (slot : BitVec 8) (x : Value) (s : State) : Effect :=
  withSlot s slot (fun d =>
    whenKind k slot d
      (whenWritable v
        (whenTakes slot d x (encodeEffect v slot s (slotEncode s.cfg.num d (s.view v) x)))))

/-- DEC_TRI (R195). -/
def execDecTri (v : View) (slot : BitVec 8) (s : State) : Host.Outcome State Fault Refusal :=
  command (.decTri v slot) takesNothing (fun _ => decodeSlot .tri v slot s) s

/-- ENC_TRI (R196). -/
def execEncTri (v : View) (slot : BitVec 8) (s : State) : Host.Outcome State Fault Refusal :=
  command (.encTri v slot) takesValue (fun x => encodeSlot .tri v slot x s) s

/-- DEC_SCALED (R200). -/
def execDecScaled (v : View) (slot : BitVec 8) (s : State) : Host.Outcome State Fault Refusal :=
  command (.decScaled v slot) takesNothing (fun _ => decodeSlot .scaled v slot s) s

/-- ENC_SCALED (R201). -/
def execEncScaled (v : View) (slot : BitVec 8) (s : State) : Host.Outcome State Fault Refusal :=
  command (.encScaled v slot) takesValue (fun x => encodeSlot .scaled v slot x s) s

/-- DEC_INDEX (R205). -/
def execDecIndex (v : View) (slot : BitVec 8) (s : State) : Host.Outcome State Fault Refusal :=
  command (.decIndex v slot) takesNothing (fun _ => decodeSlot .index v slot s) s

/-- ENC_INDEX (R206). -/
def execEncIndex (v : View) (slot : BitVec 8) (s : State) : Host.Outcome State Fault Refusal :=
  command (.encIndex v slot) takesValue (fun x => encodeSlot .index v slot x s) s

/-- DEC_KEYED (R211). -/
def execDecKeyed (v : View) (slot : BitVec 8) (s : State) : Host.Outcome State Fault Refusal :=
  command (.decKeyed v slot) takesNothing (fun _ => decodeSlot .keyed v slot s) s

/-- ENC_KEYED (R213). -/
def execEncKeyed (v : View) (slot : BitVec 8) (s : State) : Host.Outcome State Fault Refusal :=
  command (.encKeyed v slot) takesValue (fun x => encodeSlot .keyed v slot x s) s

/-- DEC_CUSTOM (R218). -/
def execDecCustom (v : View) (slot : BitVec 8) (s : State) : Host.Outcome State Fault Refusal :=
  command (.decCustom v slot) takesNothing (fun _ => decodeSlot .custom v slot s) s

/-- ENC_CUSTOM (R219). -/
def execEncCustom (v : View) (slot : BitVec 8) (s : State) : Host.Outcome State Fault Refusal :=
  command (.encCustom v slot) takesValue (fun x => encodeSlot .custom v slot x s) s

end Sys2Proof.Machine
end

