-- ==== Sys2Proof/Machine/Slots.lean ====
section
/-! DEFINITION. The slot operations (43_codec.md R226, R227), and the notification of many slots that DISPATCH makes
of the first (45_arbiter.md R297, R298). -/

namespace Sys2Proof.Machine

/-- `slot_decode(s, V0)` (R226). -/
def slotSeen (s : State) (d : Slot) : Decoded := slotDecode s.cfg.num d (s.view .v0)

/-- `S.DEDUP[n]`. -/
def cellOf (s : State) (n : Nat) : Option Value := s.dedup.getD n none

/-- Whether SLOT_NOTIFY of slot `n` publishes: a value is decoded and it is not the cell's (R226). -/
def notifyNews (s : State) (n : Nat) (d : Slot) : Bool :=
  (slotSeen s d).value.isSome && cellOf s n != (slotSeen s d).value

/-- The cell SLOT_NOTIFY leaves: "An absent decode leaves `S.DEDUP[SLOT]` unchanged" (R226). -/
def notifyCell (s : State) (n : Nat) (d : Slot) : Option Value :=
  if notifyNews s n d then (slotSeen s d).value else cellOf s n

/-- The events SLOT_NOTIFY emits: the decode's logs, then the PUBLISH of a new value (R226). -/
def notifyEvents (s : State) (n : Nat) (d : Slot) : List Event :=
  (slotSeen s d).logs ++
    (match (slotSeen s d).value with
      | some v => if notifyNews s n d then [.publish n v] else []
      | none => [])

/-- The response of SLOT_NOTIFY (R226). -/
def notifyResponse (s : State) (n : Nat) (d : Slot) : Response :=
  match (slotSeen s d).value with
  | none => ⟨.absent, .empty⟩
  | some _ => ⟨.ok, .bool (notifyNews s n d)⟩

/-- The state the SLOT_NOTIFY body leaves (R226). -/
def notifySlot (s : State) (n : Nat) (d : Slot) : State :=
  { s with dedup := s.dedup.set n (notifyCell s n d), events := s.events ++ notifyEvents s n d }

/-- SLOT_NOTIFY (R226). -/
def execSlotNotify (slot : BitVec 8) (s : State) : Host.Outcome State Fault Refusal :=
  command (.slotNotify slot) takesNothing
    (fun _ => withSlot s slot (fun d =>
      if d.mode = .w then .raise .slotMode slot.toNat
      else .done (notifyResponse s slot.toNat d) (notifySlot s slot.toNat d))) s

/-- The end of SLOT_WRITE (R227): `DIRTY` is set "even when `st = NO_EFFECT`". -/
def slotWriteEffect (slot : BitVec 8) (s : State) : Encoded → Effect
  | .written V => .done ⟨.ok, .empty⟩ { s.store .v1 0 V with dirty := true }
  | .noEffect logs => .done ⟨.noEffect, .empty⟩ { s.emit logs with dirty := true }
  | .fails c => .raise c slot.toNat

/-- SLOT_WRITE (R227): "it does not transmit directly". -/
def execSlotWrite (slot : BitVec 8) (s : State) : Host.Outcome State Fault Refusal :=
  command (.slotWrite slot) takesValue
    (fun x => withSlot s slot (fun d =>
      if d.mode = .r then .raise .slotMode slot.toNat
      else whenTakes slot d x (slotWriteEffect slot s (slotEncode s.cfg.num d (s.view .v1) x)))) s

/-! ### Notifying the slots of a category (R297) -/

/-- Whether a slot's category is the frame's class (R297). -/
def catIs (c : FrameClass) : SlotCat → Bool
  | .std => c == .std
  | .extra => c == .extra

/-- The slot with index `n`, where DISPATCH visits it: "`CFG.SLOT[s].CAT = c` and `CFG.SLOT[s].MODE != W`" (R297). -/
def readableSlot (s : State) (c : FrameClass) (n : Nat) : Option Slot :=
  (s.cfg.slots[n]?).filter (fun d => catIs c d.cat && d.mode != .w)

/-- `P` of R297, in rising order. -/
def slotsOf (s : State) (c : FrameClass) : List Nat :=
  (List.range s.cfg.nSlots).filter (fun n => (readableSlot s c n).isSome)

/-- The cells after slot `n` is notified from `s`. -/
def cellAfter (s : State) (c : FrameClass) (cells : List (Option Value)) (n : Nat) : List (Option Value) :=
  match readableSlot s c n with
  | none => cells
  | some d => cells.set n (notifyCell s n d)

/-- The events of notifying slot `n` from `s`. -/
def eventsOf (s : State) (c : FrameClass) (n : Nat) : List Event :=
  match readableSlot s c n with
  | none => []
  | some d => notifyEvents s n d

/-- The SLOT_NOTIFY bodies of the slots of class `c` (R297). Each slot reads and writes its own cell alone, so the
cells do not depend on the order; the events come in the free order (R298, log 10). -/
def notifyAll (s : State) (c : FrameClass) : State :=
  { s with
    dedup := (slotsOf s c).foldl (cellAfter s c) s.dedup
    events := s.events ++ (arrange (Config.notifyRank s.dispatchCount) (slotsOf s c)).flatMap (eventsOf s c)
    dispatchCount := s.dispatchCount + 1 }

end Sys2Proof.Machine
end

