-- ==== Sys2Proof/Machine/Arbiter.lean ====
section
/-! DEFINITION. The transaction arbiter (45_arbiter.md): transaction start and stop, dispatch, the two receive paths,
the flush, the status read and NOP. -/

namespace Sys2Proof.Machine

/-! ### Transactions -/

/-- TXN_START_INT (R281). -/
def execTxnStartInt (s : State) : Host.Outcome State Fault Refusal :=
  command .txnStartInt takesNothing
    (fun _ =>
      if s.txnState = .idle then .done ⟨.ok, .bool true⟩ (s.openTxn .internal)
      else .done ⟨.busy, .bool false⟩ s.refuseTxn) s

/-- TXN_START_EXT (R282). -/
def execTxnStartExt (s : State) : Host.Outcome State Fault Refusal :=
  command .txnStartExt takesNothing
    (fun _ =>
      if s.txnState = .idle then .done ⟨.ok, .bool true⟩ (s.openTxn .external).freezePolls
      else .done ⟨.busy, .bool false⟩ s.refuseTxn) s

/-- TXN_STOP (R283). -/
def execTxnStop (s : State) : Host.Outcome State Fault Refusal :=
  command .txnStop takesNothing (fun _ => .done ⟨.ok, .empty⟩ s.closeTxn) s

/-! ### Dispatch -/

/-- The `EXTRA_SUP` DISPATCH leaves: written "on a standard frame" alone (R297). -/
def extraSupAfter (s : State) (c : FrameClass) : Bool :=
  if c = .std then supportShown s.cfg.extraSupportPred (s.view .v0) else s.extraSup

/-- The DISPATCH body (R297). -/
def dispatchBody (s : State) : Response × State :=
  if s.fbCat = .std ∨ s.fbCat = .extra then
    (⟨.ok, .empty⟩, { notifyAll s s.fbCat with extraSup := extraSupAfter s s.fbCat })
  else (⟨.noEffect, .empty⟩, s)

/-- DISPATCH (R297). -/
def execDispatch (s : State) : Host.Outcome State Fault Refusal :=
  command .dispatch takesNothing (fun _ => .ofPair (dispatchBody s)) s

/-! ### The receive paths -/

/-- `n` of R302: the batch taken from PRI. -/
def priBatch (s : State) : Nat := min s.availPri (min s.cfg.rxChunkMax (s.cfg.rbCap.toNat - s.rbQ.length))

/-- The bytes mirrored to EXT: the batch, "only while in `EXTERNAL_TRANSACTION`" and attached (R302). -/
def mirrored (s : State) : List Byte :=
  if s.extAttached = true ∧ s.txnState = .external then s.priRx.take (priBatch s) else []

/-- The first part of RX_PRI (R302): the batch goes to the buffer, and to EXT when mirrored. -/
def takeBatch (s : State) : State :=
  { s with
    rbQ := s.rbQ ++ s.priRx.take (priBatch s)
    priRx := s.priRx.drop (priBatch s)
    extTx := s.extTx ++ mirrored s }

/-- The end of RX_PRI (R302): an accepted frame is dispatched and closes the transaction. -/
def afterParse (p : Response × State) : Response × State :=
  if p.1.status = .ok then (p.1, (dispatchBody p.2).2.closeTxn) else p

/-- `rx_pri()` (R302). The response is PARSE's. -/
def rxPriBody (s : State) : Response × State := afterParse (parseBody (takeBatch s))

/-- RX_PRI (R302). -/
def execRxPri (s : State) : Host.Outcome State Fault Refusal :=
  command .rxPri takesNothing (fun _ => .ofPair (rxPriBody s)) s

/-- How many bytes RX_EXT reads (R303). -/
def extBatch (s : State) : Nat := min s.availExt s.cfg.rxChunkMax

/-- The forwarding of R303 in an external transaction. -/
def forwardExt (s : State) : State := (s.txPri (s.extRx.take (extBatch s))).dropExt (extBatch s)

/-- RX_EXT during an internal transaction (R303): discarded under `DROP`, left unread under `HOLD`. -/
def contendExt (s : State) : State :=
  match s.cfg.extContention with
  | .drop => s.dropExt (extBatch s)
  | .hold => s

/-- `rx_ext()` (R303). -/
def rxExtBody (s : State) : Response × State :=
  if s.extAttached = false ∨ s.availExt = 0 then (⟨.noEffect, .empty⟩, s)
  else
    match s.txnState with
    | .idle => (⟨.ok, .empty⟩, forwardExt (s.openTxn .external).freezePolls)
    | .external => (⟨.ok, .empty⟩, forwardExt s)
    | .internal => (⟨.busy, .empty⟩, contendExt s)

/-- RX_EXT (R303). -/
def execRxExt (s : State) : Host.Outcome State Fault Refusal :=
  command .rxExt takesNothing (fun _ => .ofPair (rxExtBody s)) s

/-! ### Flush -/

/-- `flush()` (R304). -/
def flushBody (s : State) : Response × State :=
  if s.dirty = false then (⟨.noEffect, .empty⟩, s)
  else if s.txnState ≠ .idle then (⟨.busy, .empty⟩, s)
  else
    (⟨.ok, .empty⟩, { sendTxb (serCmdBody (s.openTxn .internal)) with dirty := false, pcb := [] })

/-- FLUSH (R304). -/
def execFlush (s : State) : Host.Outcome State Fault Refusal :=
  command .flush takesNothing (fun _ => .ofPair (flushBody s)) s

/-! ### Status and no-operation -/

/-- RD_STATUS (R312). It "also runs while `S.FAULTED = 1`" (R347); then the data port is not looked at, since "A fault
cannot occur while faulted" (R349, log 6). -/
def execRdStatus (sel : StatusSel) (s : State) : Host.Outcome State Fault Refusal :=
  if s.faulted then .next (s.respond ⟨.ok, .word (s.selectedWord sel)⟩)
  else command (.rdStatus sel) takesNothing (fun _ => .done ⟨.ok, .word (s.selectedWord sel)⟩ s) s

/-- NOP (R313). -/
def execNop (s : State) : Host.Outcome State Fault Refusal :=
  command .nop takesNothing (fun _ => .done ⟨.ok, .empty⟩ s) s

end Sys2Proof.Machine
end

