-- ==== Sys2Proof/Machine/Events.lean ====
section
/-! DEFINITION. The five host events (45_arbiter.md R294 to R310). -/

namespace Sys2Proof.Machine

/-- The three bodies of one tick in their fixed order (R300); each is given what the one before it left. The result is
the three status bytes of R108 (log 18). -/
def loopBody (s : State) : Response × State :=
  (⟨.ok, .bytes [(rxPriBody s).1.status.code, (rxExtBody (rxPriBody s).2).1.status.code,
      (flushBody (rxExtBody (rxPriBody s).2).2).1.status.code]⟩,
    (flushBody (rxExtBody (rxPriBody s).2).2).2)

/-- EV_LOOP (R300). -/
def execEvLoop (s : State) : Host.Outcome State Fault Refusal :=
  command .evLoop takesNothing (fun _ => .ofPair (loopBody s)) s

/-- `x` of R306: whether the poll is an extended one. -/
def pollIsExtra (s : State) : Bool := s.pollCnt[0] && s.extraSup

/-- The state a poll leaves (R306): the transaction open, the poll built and sent, the counter advanced. -/
def sendPoll (s : State) : State :=
  { sendTxb ((if pollIsExtra s then serExtBody else serStdBody) (s.openTxn .internal)) with
    pollCnt := s.pollCnt + 1 }

/-- EV_UPDATE (R306). -/
def execEvUpdate (s : State) : Host.Outcome State Fault Refusal :=
  command .evUpdate takesNothing
    (fun _ =>
      if s.pollDis then .done ⟨.noEffect, .empty⟩ s
      else if s.txnState ≠ .idle then .done ⟨.busy, .empty⟩ s.refuseTxn
      else .done ⟨.ok, .cls (if pollIsExtra s then .extra else .std)⟩ (sendPoll s)) s

/-- EV_TIMEOUT (R296). -/
def execEvTimeout (s : State) : Host.Outcome State Fault Refusal :=
  command .evTimeout takesNothing
    (fun _ =>
      if s.txnTmr = false then .done ⟨.noEffect, .empty⟩ s
      else .done ⟨.ok, .empty⟩ (s.closeTxn.emit [logEvent .wTxnTimeout])) s

/-- What EV_SETTLE does whether or not the handshake is sent (R309). -/
def settleDone (s : State) : State := { s with settleTmr := false, extAttached := false, pstartTmr := true }

/-- EV_SETTLE (R309). -/
def execEvSettle (s : State) : Host.Outcome State Fault Refusal :=
  command .evSettle takesNothing
    (fun _ =>
      if s.settleTmr = false then .done ⟨.noEffect, .empty⟩ s
      else if s.proxyActive then .done ⟨.ok, .empty⟩ { s with settleTmr := false }
      else if s.txnState ≠ .idle then .done ⟨.busy, .empty⟩ (settleDone s).refuseTxn
      else .done ⟨.ok, .empty⟩ (sendTxb (serInitBody ((settleDone s).openTxn .internal)))) s

/-- EV_PSTART (R310). -/
def execEvPstart (s : State) : Host.Outcome State Fault Refusal :=
  command .evPstart takesNothing
    (fun _ =>
      if s.pstartTmr = false then .done ⟨.noEffect, .empty⟩ s
      else if s.proxyActive then .done ⟨.ok, .empty⟩ { s with pstartTmr := false }
      else .done ⟨.ok, .empty⟩ { s with pstartTmr := false, pollDis := false, pollCnt := 0 }) s

end Sys2Proof.Machine
end

