-- ==== Sys2Proof/Machine/WireFrame.lean ====
section
/-! DEFINITION. The frame header rows of the opcode table (30_encoding.md R126, R127). They are no commands: a
FRAME_TX_* row is a frame HPFE builds, its meaning the builder of the rule the row cites (log 7); a FRAME_RX_* row is
a frame that arrives on PRI, its meaning the arrival and the receive path that parses it (log 8). -/

namespace Sys2Proof.Machine

/-- A frame HPFE builds: the row's rule "writes `S.TXB`, `S.TXB_LEN`" and answers `(OK, empty)` (R253 to R256). -/
def transmitFrame (body : State → State) (s : State) : Host.Outcome State Fault Refusal :=
  if s.faulted then .next s.respondFaulted else .next ((body s).respond ⟨.ok, .empty⟩)

/-- FRAME_TX_INIT: the initial handshake request (R253). The direction byte is `CFG.DIR_TX` "in every frame it builds"
(R125), whatever the row's free byte. -/
def execFrameTxInit (_dir : Byte) (s : State) : Host.Outcome State Fault Refusal := transmitFrame serInitBody s

/-- FRAME_TX_STD_POLL: the standard poll (R254); direction as R125 says. -/
def execFrameTxStdPoll (_dir : Byte) (s : State) : Host.Outcome State Fault Refusal := transmitFrame serStdBody s

/-- FRAME_TX_EXT_POLL: the extended poll (R255); direction as R125 says. -/
def execFrameTxExtPoll (_dir : Byte) (s : State) : Host.Outcome State Fault Refusal := transmitFrame serExtBody s

/-- FRAME_TX_CMD: the command frame (R256). Direction and category are `CFG.DIR_TX` and `CFG.CMD_CATEGORY` (R125,
R126), whatever the row's free bytes. -/
def execFrameTxCmd (_dir _cat : Byte) (s : State) : Host.Outcome State Fault Refusal := transmitFrame serCmdBody s

/-- The bytes of a received frame after its header: what the input brought with it. -/
def restOf : Data → List Byte
  | .bytes b => b
  | .empty | .nat _ | .value _ => []

/-- A frame arrives on PRI and the receive path takes it: "On every inbound byte batch from the primary transport:
append to the buffer; ... then attempt to parse a complete frame" (R302, whose PARSE makes the steps R244 to R248).
While faulted the bytes stay in the transport (R347). -/
def receiveBytes (F : List Byte) (s : State) : State :=
  if s.faulted then (s.arrive .pri F).respondFaulted
  else (rxPriBody (s.arrive .pri F)).2.respond (rxPriBody (s.arrive .pri F)).1

/-- FRAME_RX_PRE_POLL: a frame that starts with 71 is received (R244). -/
def execFrameRxPrePoll (len dir cat : Byte) (s : State) : Host.Outcome State Fault Refusal :=
  .next (receiveBytes ([0x71, len, dir, cat] ++ restOf s.data) s)

/-- FRAME_RX_PRE_CMD: a frame that starts with F1 is received (R244). -/
def execFrameRxPreCmd (len dir cat : Byte) (s : State) : Host.Outcome State Fault Refusal :=
  .next (receiveBytes ([0xF1, len, dir, cat] ++ restOf s.data) s)

/-- FRAME_RX_PRE_INIT: a frame that starts with 31 is received (R244). -/
def execFrameRxPreInit (len dir cat : Byte) (s : State) : Host.Outcome State Fault Refusal :=
  .next (receiveBytes ([0x31, len, dir, cat] ++ restOf s.data) s)

/-- FRAME_RX_CAT_INIT: a frame of category 01 is received (R248). -/
def execFrameRxCatInit (pre len dir : Byte) (s : State) : Host.Outcome State Fault Refusal :=
  .next (receiveBytes ([pre, len, dir, 0x01] ++ restOf s.data) s)

/-- FRAME_RX_CAT_STD: a frame of category 10 is received (R248). -/
def execFrameRxCatStd (pre len dir : Byte) (s : State) : Host.Outcome State Fault Refusal :=
  .next (receiveBytes ([pre, len, dir, 0x10] ++ restOf s.data) s)

/-- FRAME_RX_CAT_EXTRA: a frame of category 21 is received (R248). -/
def execFrameRxCatExtra (pre len dir : Byte) (s : State) : Host.Outcome State Fault Refusal :=
  .next (receiveBytes ([pre, len, dir, 0x21] ++ restOf s.data) s)

end Sys2Proof.Machine
end

