-- ==== Sys2Proof/Machine/Dispatch.lean ====
section
/-! DEFINITION. One arm per instruction: a direct call of its meaning. -/

namespace Sys2Proof.Machine

def exec (i : Instr) (s : State) : Host.Outcome State Fault Refusal :=
  match i with
  | .nop => Sys2Proof.Machine.execNop s
  | .rbSize => Sys2Proof.Machine.execRbSize s
  | .rbPush cnt => Sys2Proof.Machine.execRbPush cnt s
  | .rbPeek cnt => Sys2Proof.Machine.execRbPeek cnt s
  | .rbPop => Sys2Proof.Machine.execRbPop s
  | .rbDiscardUntil mrk => Sys2Proof.Machine.execRbDiscardUntil mrk s
  | .rdBits view off bit w => Sys2Proof.Machine.execRdBits view off bit w s
  | .wrBits view off bit w => Sys2Proof.Machine.execWrBits view off bit w s
  | .rdBytes view off w => Sys2Proof.Machine.execRdBytes view off w s
  | .wrBytes view off w => Sys2Proof.Machine.execWrBytes view off w s
  | .rdArray view off w => Sys2Proof.Machine.execRdArray view off w s
  | .wrArray view off w => Sys2Proof.Machine.execWrArray view off w s
  | .decTri view slot => Sys2Proof.Machine.execDecTri view slot s
  | .encTri view slot => Sys2Proof.Machine.execEncTri view slot s
  | .decScaled view slot => Sys2Proof.Machine.execDecScaled view slot s
  | .encScaled view slot => Sys2Proof.Machine.execEncScaled view slot s
  | .decIndex view slot => Sys2Proof.Machine.execDecIndex view slot s
  | .encIndex view slot => Sys2Proof.Machine.execEncIndex view slot s
  | .decKeyed view slot => Sys2Proof.Machine.execDecKeyed view slot s
  | .encKeyed view slot => Sys2Proof.Machine.execEncKeyed view slot s
  | .decCustom view slot => Sys2Proof.Machine.execDecCustom view slot s
  | .encCustom view slot => Sys2Proof.Machine.execEncCustom view slot s
  | .slotNotify slot => Sys2Proof.Machine.execSlotNotify slot s
  | .slotWrite slot => Sys2Proof.Machine.execSlotWrite slot s
  | .parse => Sys2Proof.Machine.execParse s
  | .ckGen => Sys2Proof.Machine.execCkGen s
  | .ckChk view => Sys2Proof.Machine.execCkChk view s
  | .serInit => Sys2Proof.Machine.execSerInit s
  | .serStd => Sys2Proof.Machine.execSerStd s
  | .serExt => Sys2Proof.Machine.execSerExt s
  | .serCmd => Sys2Proof.Machine.execSerCmd s
  | .txSend => Sys2Proof.Machine.execTxSend s
  | .txnStartInt => Sys2Proof.Machine.execTxnStartInt s
  | .txnStartExt => Sys2Proof.Machine.execTxnStartExt s
  | .txnStop => Sys2Proof.Machine.execTxnStop s
  | .dispatch => Sys2Proof.Machine.execDispatch s
  | .rxPri => Sys2Proof.Machine.execRxPri s
  | .rxExt => Sys2Proof.Machine.execRxExt s
  | .flush => Sys2Proof.Machine.execFlush s
  | .rdStatus sel => Sys2Proof.Machine.execRdStatus sel s
  | .evLoop => Sys2Proof.Machine.execEvLoop s
  | .evUpdate => Sys2Proof.Machine.execEvUpdate s
  | .evTimeout => Sys2Proof.Machine.execEvTimeout s
  | .evSettle => Sys2Proof.Machine.execEvSettle s
  | .evPstart => Sys2Proof.Machine.execEvPstart s
  | .frameTxInit dir => Sys2Proof.Machine.execFrameTxInit dir s
  | .frameTxStdPoll dir => Sys2Proof.Machine.execFrameTxStdPoll dir s
  | .frameTxExtPoll dir => Sys2Proof.Machine.execFrameTxExtPoll dir s
  | .frameTxCmd dir cat => Sys2Proof.Machine.execFrameTxCmd dir cat s
  | .frameRxPrePoll len dir cat => Sys2Proof.Machine.execFrameRxPrePoll len dir cat s
  | .frameRxPreCmd len dir cat => Sys2Proof.Machine.execFrameRxPreCmd len dir cat s
  | .frameRxPreInit len dir cat => Sys2Proof.Machine.execFrameRxPreInit len dir cat s
  | .frameRxCatInit pre len dir => Sys2Proof.Machine.execFrameRxCatInit pre len dir s
  | .frameRxCatStd pre len dir => Sys2Proof.Machine.execFrameRxCatStd pre len dir s
  | .frameRxCatExtra pre len dir => Sys2Proof.Machine.execFrameRxCatExtra pre len dir s

end Sys2Proof.Machine
end

