-- ==== Sys2Proof/Machine/Inputs.lean ====
section
/-! DEFINITION. Taking one input (10_state.md R55, log 4): how a command word, a frame header, an arrival and a reset
reach the machine, and the input that presents one word of the opcode table. -/

namespace Sys2Proof.Machine

/-- What taking an input comes to: an instruction to run in a state, or a state with nothing left to run. -/
inductive Fetched where
  | run (i : Instr) (s : State)
  | settled (s : State)

/-- Takes one input (the queue of `s` no longer holds it). A command word is decoded with its operand on the data
port (30_encoding.md R113), a reserved word raises `ILLEGAL_CMD` (R112); a frame header is decoded by its rows (R127),
and a received header that no row matches is bytes like any other (R128, I7); a header that no row of the frames HPFE
sends matches is no frame HPFE sends, and does nothing. -/
def fetch (x : Input) (s : State) : Fetched :=
  match x with
  | .command w d =>
    match decodeCommand w with
    | .ok i => .run i { s with data := d }
    | .error _ => .settled (illegalCommand w { s with data := d })
  | .txFrame h =>
    match decodeTxHeader h with
    | .ok i => .run i s
    | .error _ => .settled s
  | .rxFrame h rest =>
    match decodeRxHeader h with
    | .ok i => .run i { s with data := .bytes rest }
    | .error _ => .settled (receiveBytes (headerBytes h ++ rest) s)
  | .arrive p B => .settled (s.arrive p B)
  | .reset c => .settled (s.applyReset c)

/-! ### One word of the opcode table as an input (log 17) -/

/-- A value of zeros for a kind (R192). -/
def zeroValue : Kind → Value
  | .tri => .bool false
  | .scaled => .num 0
  | .index => .str ""
  | .keyed => .undef
  | .custom => .bool false

/-- The data operand of zeros of the type R107 gives the operation. -/
def zeroOperand (s : State) : Instr → Data
  | .rbPush cnt => .bytes (zeros cnt.toNat)
  | .wrBits _ _ _ _ | .wrBytes _ _ _ => .nat 0
  | .wrArray _ _ w => .bytes (zeros w.toNat)
  | .encTri _ _ => .value (zeroValue .tri)
  | .encScaled _ _ => .value (zeroValue .scaled)
  | .encIndex _ _ => .value (zeroValue .index)
  | .encKeyed _ _ => .value (zeroValue .keyed)
  | .encCustom _ _ => .value (zeroValue .custom)
  | .slotWrite slot =>
    match s.cfg.slots[slot.toNat]? with
    | some d => .value (zeroValue d.kind)
    | none => .value (zeroValue .custom)
  | .nop | .rbSize | .rbPeek _ | .rbPop | .rbDiscardUntil _ | .rdBits _ _ _ _ | .rdBytes _ _ _ | .rdArray _ _ _
  | .decTri _ _ | .decScaled _ _ | .decIndex _ _ | .decKeyed _ _ | .decCustom _ _ | .slotNotify _ | .parse
  | .ckGen | .ckChk _ | .serInit | .serStd | .serExt | .serCmd | .txSend | .txnStartInt | .txnStartExt
  | .txnStop | .dispatch | .rxPri | .rxExt | .flush | .rdStatus _ | .evLoop | .evUpdate | .evTimeout
  | .evSettle | .evPstart
  | .frameTxInit _ | .frameTxStdPoll _ | .frameTxExtPoll _ | .frameTxCmd _ _
  | .frameRxPrePoll _ _ _ | .frameRxPreCmd _ _ _ | .frameRxPreInit _ _ _
  | .frameRxCatInit _ _ _ | .frameRxCatStd _ _ _ | .frameRxCatExtra _ _ _ => .empty

/-- The input that presents a word: on the command port with an operand of zeros, or as a frame header, the rest of a
received frame zeros (`L - 1` bytes, R121). A word that is none of them is presented as a command word. -/
def inputFor (s : State) (w : Word) : Input :=
  match decodeTable w with
  | some (.command, i) => .command w (zeroOperand s i)
  | some (.txHeader, _) => .txFrame w
  | some (.rxHeader, _) => .rxFrame w (zeros ((header1 w).toNat - 1))
  | none => .command w .empty

end Sys2Proof.Machine
end

