-- ==== Sys2Proof/Machine/Step.lean ====
section
/-! DEFINITION. One step: the next input is taken (Machine/Inputs.lean) and its instruction run (Machine/Dispatch.lean).
With no input the engine "holds its state and does nothing" (60_exceptions.md R361). -/

namespace Sys2Proof.Machine

def step (s : State) : Host.Outcome State Fault Refusal :=
  match s.inputs with
  | [] => .next s
  | x :: rest =>
    match fetch x { s with inputs := rest } with
    | .run i t => exec i t
    | .settled t => .next t

/-- The state with the word as its next input. -/
def State.withFetchWord (s : State) (_nbits w : Nat) : State :=
  { s with inputs := inputFor s (BitVec.ofNat 32 w) :: s.inputs }

end Sys2Proof.Machine
end

