-- ==== Sys2Proof/Safety.lean ====
section
/-! DEFINITION. The terms claims are written in: how an instruction completes, what a store changes, and the invariant
of a state. -/

namespace Sys2Proof.Machine

/-! ### How an instruction completes -/

/-- The engine is not faulted and the data port holds `d`. -/
def Ready (s : State) (d : Data) : Prop := s.faulted = false ∧ s.data = d

/-- The instruction completes with the response `r` and leaves `t` beside it (00_scope.md R17). -/
def Answers (i : Instr) (s : State) (r : Response) (t : State) : Prop := exec i s = .next (t.respond r)

/-- The instruction raises a fault (60_exceptions.md R346). -/
def Raises (i : Instr) (s : State) (c : FaultCode) (info : Nat) : Prop :=
  exec i s = .next { s with
    faulted := true
    faultCode := c.code
    faultInfo := BitVec.ofNat 32 info
    events := s.events ++ [.log .error .fFault]
    resp := some ⟨.fault, .byte c.code⟩ }

/-! ### What a store changes -/

/-- `t` is `s` with the bytes `B` stored at offset `off` of a writable view: every byte outside them reads as before,
and nothing but the view's array differs. -/
def Stored (s t : State) (v : View) (off : Nat) (B : List Byte) : Prop :=
  match v with
  | .v1 =>
    t = { s with pcb := t.pcb } ∧
      ∀ a, t.pcb.read a = if off ≤ a ∧ a < off + B.length then byteAt B (a - off) else s.pcb.read a
  | .v2 =>
    t = { s with txb := t.txb } ∧
      ∀ a, t.txb.read a = if off ≤ a ∧ a < off + B.length then byteAt B (a - off) else s.txb.read a
  | .v0 | .v3 => False

/-- `t` is `s` with a frame built in TXB (44_frame.md R252): its bytes, and every byte of TXB after it as before. -/
def Built (s t : State) (pre cat : Byte) (data : List Byte) : Prop :=
  t = { s with txb := t.txb, txbLen := data.length + 5 } ∧
    t.view .v2 = [pre, BitVec.ofNat 8 (data.length + 2), s.cfg.dirTx, cat] ++ data ++
      [ck ([pre, BitVec.ofNat 8 (data.length + 2), s.cfg.dirTx, cat] ++ data)] ∧
    ∀ a, data.length + 5 ≤ a → t.txb.read a = s.txb.read a

/-- Bit `j` (0 least significant) of byte `i` of a view belongs to the slot's field: field positions are counted from
the most significant bit of the field's first byte (00_scope.md R10, 43_codec.md R210). -/
def inField (d : Slot) (i j : Nat) : Prop :=
  d.byte ≤ i ∧ d.bit - 1 ≤ 8 * (i - d.byte) + (7 - j) ∧ 8 * (i - d.byte) + (7 - j) < d.bit - 1 + d.width

/-! ### The checks of a configuration (60_exceptions.md R356) -/

/-- The checks of one slot (R356). `INDEX` also asks `1 ≤ BIT` (log 19); an `unchecked` encoder is one that R356
refuses (log 12). -/
def SlotCheckHolds (c : Config) (d : Slot) : Prop :=
  (d.codec = .tri → 1 ≤ d.bit ∧ d.bit ≤ 7 ∧ d.width = 2) ∧
  (∀ mul off, d.codec = .scaled mul off → d.width ∈ [8, 16, 24, 32] ∧ d.bit = 1 ∧ mul ≠ 0) ∧
  (∀ table, d.codec = .index table →
    (1 ≤ d.width ∧ d.width ≤ 8) ∧ (1 ≤ d.bit ∧ d.bit + d.width - 1 ≤ 8) ∧
      (1 ≤ table.length ∧ table.length ≤ 2 ^ d.width - 1) ∧ (d.mode ≠ .r → table.Nodup)) ∧
  (∀ map, d.codec = .keyed map →
    (1 ≤ d.bit ∧ d.bit ≤ 8) ∧ 1 ≤ d.width ∧ keyLength d.bit d.width ≤ c.keyMaxBytes ∧
      (∀ e ∈ map, e.1.length = keyLength d.bit d.width ∧ kmask d.bit d.width e.1 = e.1) ∧
      (map.map (·.1)).Nodup ∧ (d.mode ≠ .r → (map.map (·.2)).Nodup)) ∧
  (∀ dec id, d.codec ≠ .custom dec (some (.unchecked id))) ∧
  (d.mode ≠ .r → d.req ≤ c.cmdLenField.toNat - 2)

/-- The check with a number of R356: 1 to 7, and `100 + s` for slot `s`. Check 8 is the type of `EXTRA_SUPPORT_PRED`; a
number of no check, or of no slot, holds. -/
def CheckHolds (c : Config) (n : Nat) : Prop :=
  match n with
  | 1 => 258 ≤ c.rbCap.toNat
  | 2 => 1 ≤ c.rxChunkMax ∧ c.rxChunkMax ≤ c.rbCap.toNat
  | 3 => 1 ≤ c.minPacketSize ∧ c.minPacketSize ≤ 254
  | 4 => c.minPacketSize < c.initLenField.toNat ∧ c.minPacketSize < c.pollLenField.toNat ∧
      c.minPacketSize < c.cmdLenField.toNat ∧ 3 ≤ c.cmdLenField.toNat
  | 5 => c.initPayload.length = c.initLenField.toNat - 2
  | 6 => c.prePoll ∈ c.rxPreambles ∧ c.preCmd ∈ c.rxPreambles ∧ c.preInit ∈ c.rxPreambles ∧
      [c.catInit, c.catStd, c.catExtra].Nodup
  | 7 => c.slots.length ≤ 256
  | n => 100 ≤ n → ∀ d, c.slots[n - 100]? = some d → SlotCheckHolds c d

/-! ### The codec commands by kind (43_codec.md) -/

/-- The DEC_* command of a kind. -/
def decoderOf : Kind → View → BitVec 8 → Instr
  | .tri => .decTri
  | .scaled => .decScaled
  | .index => .decIndex
  | .keyed => .decKeyed
  | .custom => .decCustom

/-- The ENC_* command of a kind. -/
def encoderOf : Kind → View → BitVec 8 → Instr
  | .tri => .encTri
  | .scaled => .encScaled
  | .index => .encIndex
  | .keyed => .encKeyed
  | .custom => .encCustom

/-- The slots DISPATCH visits for a frame of class `c`: "the slots s < CFG.N_SLOTS with CFG.SLOT[s].CAT = c and
CFG.SLOT[s].MODE != W" (45_arbiter.md R297). -/
def Visited (s : State) (c : FrameClass) (n : Nat) : Prop :=
  ∃ d, s.cfg.slots[n]? = some d ∧ catIs c d.cat = true ∧ d.mode ≠ .w

/-- The SLOT_NOTIFY body for one slot, one round of the loop of R297. -/
def notifyRound (s : State) (n : Nat) : State :=
  match s.cfg.slots[n]? with
  | none => s
  | some d => notifySlot s n d

/-! ### The data port (30_encoding.md R107) -/

/-- `D` has the type and length the table of R107 gives the operation. -/
def operandFits : Instr → Data → Bool
  | .rbPush cnt, .bytes b => b.length == cnt.toNat
  | .wrArray _ _ w, .bytes b => b.length == w.toNat
  | .wrBits _ _ _ _, .nat _ => true
  | .wrBytes _ _ _, .nat _ => true
  | .encTri _ _, .value _ => true
  | .encScaled _ _, .value _ => true
  | .encIndex _ _, .value _ => true
  | .encKeyed _ _, .value _ => true
  | .encCustom _ _, .value _ => true
  | .slotWrite _, .value _ => true
  | .rbPush _, _ | .wrArray _ _ _, _ | .wrBits _ _ _ _, _ | .wrBytes _ _ _, _ | .encTri _ _, _
  | .encScaled _ _, _ | .encIndex _ _, _ | .encKeyed _ _, _ | .encCustom _ _, _ | .slotWrite _, _ => false
  | _, .empty => true
  | _, .nat _ | _, .bytes _ | _, .value _ => false

/-! ### The invariant -/

/-- "`len(S.RB_Q) <= CFG.RB_CAP`" (41_ring_buffer.md R145). -/
def ringBounded (s : State) : Prop := s.rbQ.length ≤ s.cfg.rbCap.toNat

/-- "`S.TXN_TMR = 1` exactly when `S.TXN_STATE != IDLE`" (45_arbiter.md R284). -/
def timerMatches (s : State) : Prop := s.txnTmr = true ↔ s.txnState ≠ .idle

/-- "Once `S.PROXY_ACTIVE = 1`, `S.POLL_DIS` stays 1" (45_arbiter.md R316). -/
def proxyFreezes (s : State) : Prop := s.proxyActive = true → s.pollDis = true

/-- The boot phases (70_reset_and_hazards.md R384): polling is disabled until both boot timers have run, and the
poll-start timer runs after the settle timer. -/
def bootPhases (s : State) : Prop :=
  (s.settleTmr = true → s.pstartTmr = false ∧ s.pollDis = true) ∧ (s.pstartTmr = true → s.pollDis = true)

/-- The three byte arrays are in canonical form and within their sizes (20_memory.md R70). -/
def arraysSound (s : State) : Prop :=
  (s.fb.wf = true ∧ s.txb.wf = true ∧ s.pcb.wf = true) ∧
    (s.fb.fits frameMax = true ∧ s.txb.fits frameMax = true ∧ s.pcb.fits s.cfg.cmdN = true) ∧
    s.fbLen ≤ frameMax ∧ s.txbLen ≤ frameMax

/-- FB holds no frame, or the last accepted one: checksum-valid, its length field `FB_LEN - 3` and above
`MIN_PACKET_SIZE`, its class that of its category byte (10_state.md R34, 44_frame.md R242, R248). -/
def frameSound (s : State) : Prop :=
  (s.fbLen = 0 ∧ s.fbCat = .none) ∨
    (sum8 (s.view .v3) = 0 ∧ s.fbLen = (byteAt (s.view .v3) 1).toNat + 3 ∧ s.cfg.minPacketSize + 3 < s.fbLen ∧
      s.fbCat = classOf s.cfg (byteAt (s.view .v3) 3))

/-- One change-detection cell per slot (10_state.md R46). -/
def cellsSound (s : State) : Prop := s.dedup.length = s.cfg.nSlots

/-- A configuration that fails a check is refused at reset: the engine is faulted (60_exceptions.md R357). -/
def configSound (s : State) : Prop := s.cfg.wf = true ∨ s.faulted = true

/-- "`FAULT_CODE = 0` with `FAULTED = 0` means no fault"; "Codes 0x00 and 0x0E to 0xFF are never written"
(60_exceptions.md R341). -/
def latchSound (s : State) : Prop :=
  (s.faulted = false ∧ s.faultCode = 0 ∧ s.faultInfo = 0) ∨ (s.faulted = true ∧ ∃ c : FaultCode, s.faultCode = c.code)

/-- EXT is attached only where it exists (10_state.md R44, R53). -/
def attachmentSound (s : State) : Prop := s.extAttached = true → s.cfg.extConfigured = true

/-- The invariant of HPFE's state. -/
structure Inv (s : State) : Prop where
  ring : ringBounded s
  timer : timerMatches s
  proxy : proxyFreezes s
  boot : bootPhases s
  arrays : arraysSound s
  frame : frameSound s
  cells : cellsSound s
  config : configSound s
  latch : latchSound s
  attachment : attachmentSound s

end Sys2Proof.Machine
end

