-- ==== Sys2Proof/Certificates/Slice0/Obligations.lean ====
section
/-! DEFINITION. The statements about HPFE, from the numbered rules of spec/. A statement about a command says how it
completes from every state in which the engine is not faulted and the data port holds the operand's type; a state
written as an update of `s` says the frame: every other field is as before. -/

open Sys2Proof Sys2Proof.Machine

/-! ### Encoding -/

/-- DECODE AND ENCODE AGREE. Every well-formed instruction's word decodes, in its encoding, to the instruction
(R102, R111, R127). The model's choice (log 9): the port says which encoding a word is read in, and a received header
that matches a category row and a preamble row is the category row's, so a FRAME_RX_PRE instruction with a known
category byte is not well-formed. -/
def Obligations.DecodeOfEncodeIsTheInstruction : Prop :=
  ∀ i : Instr, i.wf = true → decode i.encoding (encode i) = .ok i

/-- Each word has one meaning: what a word decodes to is a well-formed instruction of that encoding, and the word is
its encoding, so no reserved bit of a decoded word is set (R102, R112). Of a received header it is so by the model's
choice (log 9): R127 lets one match a category row and a preamble row, and the category row is taken; that the port says
which encoding a word is read in is log 9's too. -/
def Obligations.EncodeOfDecodeIsTheWord : Prop :=
  ∀ (e : Encoding) (w : Word) (i : Instr), decode e w = .ok i → i.wf = true ∧ i.encoding = e ∧ encode i = w

/-- The words of 95_test_vectors.md section 3.1, one at least for each family, and header words of the reference
frames of its section 1, decode to the instructions they stand for. That `0x716F0210` on receive is FRAME_RX_CAT_STD, and
not FRAME_RX_PRE_POLL, whose row it matches too, and that the port tells a sent header from a received one, is the
model's choice (log 9). -/
def Obligations.SpecWordsDecode : Prop :=
  decodeCommand 0x00000000 = .ok .nop ∧
  decodeCommand 0x02190000 = .ok (.rbPush 50) ∧
  decodeCommand 0x03008000 = .ok (.rbPeek 1) ∧
  decodeCommand 0x05003880 = .ok (.rbDiscardUntil 0x71) ∧
  decodeCommand 0x10400210 = .ok (.rdBits .v1 0 1 2) ∧
  decodeCommand 0x11808240 = .ok (.wrBits .v2 4 1 8) ∧
  decodeCommand 0x12414010 = .ok (.rdBytes .v1 10 2) ∧
  decodeCommand 0x15400010 = .ok (.wrArray .v1 0 2) ∧
  decodeCommand 0x20000000 = .ok (.decTri .v0 0) ∧
  decodeCommand 0x2740C000 = .ok (.encKeyed .v1 3) ∧
  decodeCommand 0x2B00C000 = .ok (.slotWrite 3) ∧
  decodeCommand 0x42C00000 = .ok (.ckChk .v3) ∧
  decodeCommand 0x51000000 = .ok .txnStartExt ∧
  decodeCommand 0x5F800000 = .ok (.rdStatus .lengths) ∧
  decodeCommand 0x63000000 = .ok .evSettle ∧
  decodeTxHeader 0x31080101 = .ok (.frameTxInit 0x01) ∧
  decodeTxHeader 0x716F0110 = .ok (.frameTxStdPoll 0x01) ∧
  decodeRxHeader 0x716F0210 = .ok (.frameRxCatStd 0x71 0x6F 0x02) ∧
  decodeRxHeader 0x71060255 = .ok (.frameRxPrePoll 0x06 0x02 0x55)

/-- A word that no command of the opcode map encodes to is reserved: it raises `ILLEGAL_CMD` with the word as
`FAULT_INFO`, and has no other effect than fault entry (R112). -/
def Obligations.ReservedWordRaisesIllegalCommand : Prop :=
  ∀ (s : State) (w : Word) (d : Data) (rest : List Input),
    s.faulted = false → s.inputs = .command w d :: rest →
    (∀ i : Instr, i.encoding = .command → encode i ≠ w) →
    step s = .next { s with
      inputs := rest
      data := d
      faulted := true
      faultCode := 0x01
      faultInfo := w
      events := s.events ++ [.log .error .fFault]
      resp := some ⟨.fault, .byte 0x01⟩ }

/-! ### The step -/

/-- A STEP RUNS THE DECODED INSTRUCTION: with the word of a well-formed instruction as the next input, on the port of
its encoding, step is exec of it, at the state whose queue no longer holds the input and whose data port holds what
the input brought. -/
def Obligations.StepRunsTheDecodedInstruction : Prop :=
  ∀ (i : Instr) (s : State) (d : Data) (B : List Byte) (rest : List Input), i.wf = true →
    (i.encoding = .command → s.inputs = .command (encode i) d :: rest →
      step s = exec i { s with inputs := rest, data := d }) ∧
    (i.encoding = .txHeader → s.inputs = .txFrame (encode i) :: rest →
      step s = exec i { s with inputs := rest }) ∧
    (i.encoding = .rxHeader → s.inputs = .rxFrame (encode i) B :: rest →
      step s = exec i { s with inputs := rest, data := .bytes B })

/-- With no input the engine holds its state (R361). Bytes that arrive go to the end of a transport's unread input and
change nothing else, faulted or not (R55, R347); a reset input applies its configuration (R380) and adds no event, also
where the configuration fails a check (the model's choice, logs 15 and 23). A header to send that no row matches does
nothing; a received one is bytes like any other (R128), which arrive on PRI and are taken by RX_PRI, or wait there while
the engine is faulted. How inputs and headers reach the machine is the model's choice (logs 4, 8 and 9). -/
def Obligations.StepWithoutACommand : Prop :=
  ∀ (s : State) (h : Word) (B F : List Byte) (c : Config) (rest : List Input),
    F = [h.extractLsb' 24 8, h.extractLsb' 16 8, h.extractLsb' 8 8, h.extractLsb' 0 8] ++ B →
    (s.inputs = [] → step s = .next s) ∧
    (s.inputs = .arrive .pri B :: rest → step s = .next { s with inputs := rest, priRx := s.priRx ++ B }) ∧
    (s.inputs = .arrive .ext B :: rest → step s = .next { s with inputs := rest, extRx := s.extRx ++ B }) ∧
    (s.inputs = .reset c :: rest → step s = .next (State.applyReset c { s with inputs := rest }) ∧
      (State.applyReset c { s with inputs := rest }).events = s.events) ∧
    (s.inputs = .txFrame h :: rest → (∀ i : Instr, i.encoding = .txHeader → encode i ≠ h) →
      step s = .next { s with inputs := rest }) ∧
    (s.inputs = .rxFrame h B :: rest → (∀ i : Instr, i.encoding = .rxHeader → encode i ≠ h) →
      (s.faulted = true → step s = .next { s with
        inputs := rest, priRx := s.priRx ++ F, resp := some ⟨.fault, .byte s.faultCode⟩ }) ∧
      (s.faulted = false →
        ∃ u : State, exec .rxPri { s with inputs := rest, data := .empty, priRx := s.priRx ++ F } = .next u ∧
          step s = .next { u with data := s.data }))

/-! ### Reset and configuration -/

/-- Reset sets every element of S to the value R380's table gives, whatever its value before, and does not touch the
transports; the frame and transmit buffers are unreachable through every view. The fault latch tells the first failing
check of R356 (R357), whose numbers are those of WellFormedConfigurationChecks. -/
def Obligations.ResetSetsEveryElement : Prop :=
  ∀ (c : Config) (s : State),
    (s.applyReset c).cfg = c ∧
    (s.applyReset c).rbQ = [] ∧
    (s.applyReset c).fbLen = 0 ∧ (s.applyReset c).fbCat = .none ∧
    (s.applyReset c).view .v0 = [] ∧ (s.applyReset c).view .v3 = [] ∧
    (s.applyReset c).txbLen = 0 ∧ (s.applyReset c).view .v2 = [] ∧
    (s.applyReset c).view .v1 = List.replicate (c.cmdLenField.toNat - 2) 0 ∧
    (s.applyReset c).dirty = false ∧
    (s.applyReset c).txnState = .idle ∧ (s.applyReset c).txnTmr = false ∧
    (s.applyReset c).settleTmr = true ∧ (s.applyReset c).pstartTmr = false ∧
    (s.applyReset c).pollDis = true ∧ (s.applyReset c).pollCnt = 0 ∧
    (s.applyReset c).extraSup = false ∧ (s.applyReset c).proxyActive = false ∧
    (s.applyReset c).extAttached = c.extConfigured ∧
    (s.applyReset c).dedup.length = c.slots.length ∧
    (∀ n < c.slots.length, (s.applyReset c).dedup[n]? = some none) ∧
    (c.firstFailing = none →
      (s.applyReset c).faulted = false ∧ (s.applyReset c).faultCode = 0 ∧ (s.applyReset c).faultInfo = 0) ∧
    (∀ k, c.firstFailing = some k →
      (s.applyReset c).faulted = true ∧ (s.applyReset c).faultCode = 0x0B ∧
        (s.applyReset c).faultInfo = BitVec.ofNat 32 k) ∧
    (s.applyReset c).priRx = s.priRx ∧ (s.applyReset c).extRx = s.extRx ∧
    (s.applyReset c).priTx = s.priTx ∧ (s.applyReset c).extTx = s.extTx

/-- "At reset, STATUS reads `0x00000028` when `CFG.EXT_CONFIGURED` is false and `0x00000128` when it is true" (R48),
for every well-formed configuration. -/
def Obligations.ResetStatusWord : Prop :=
  ∀ (c : Config) (s : State), c.wf = true →
    (s.applyReset c).statusWord = if c.extConfigured then 0x00000128 else 0x00000028

/-- The checks of R356, by their numbers (`CheckHolds`): a configuration is well-formed exactly when each of them holds,
and the number that a failing one gives is that of its first failing check, `100 + s` for slot `s`. ResetSetsEveryElement
says that reset latches this number as `FAULT_INFO` (R357). The INDEX check also asks `1 ≤ BIT` (log 19), and an encoder
keeps the length by its name (log 12): these are the model's choices. -/
def Obligations.WellFormedConfigurationChecks : Prop :=
  ∀ c : Config,
    (c.wf = true ↔ ∀ n, CheckHolds c n) ∧
    ∀ k, c.firstFailing = some k ↔ ¬ CheckHolds c k ∧ ∀ n < k, CheckHolds c n

/-- The invariant holds after every reset, under a well-formed configuration or not. -/
def Obligations.ResetMeetsTheInvariant : Prop :=
  (∀ (c : Config) (s : State), Inv (s.applyReset c)) ∧ Inv State.reset

/-- AN INVARIANT THAT EVERY STEP KEEPS, from every state that meets it and for every input: the ring bound (R145), the
timer (R284), the frozen polls (R316), the boot phases, the canonical arrays within their sizes, the accepted frame,
one cell per slot, the configuration and the fault latch. -/
def Obligations.StepKeepsTheInvariant : Prop :=
  ∀ s t : State, Inv s → step s = .next t → Inv t

/-- "No operation of HPFE writes any field of `CFG`" (R7), and no command but the parsing ones writes the received
frame (R34, R72: "Only PARSE writes `S.FB`"; RX_PRI, EV_LOOP and a received frame run PARSE). -/
def Obligations.ConfigurationAndReceivedFrameAreNotWritten : Prop :=
  ∀ (i : Instr) (s t : State), exec i s = .next t →
    t.cfg = s.cfg ∧
    (i ≠ .parse → i ≠ .rxPri → i ≠ .evLoop → i.encoding ≠ .rxHeader →
      t.fb = s.fb ∧ t.fbLen = s.fbLen ∧ t.fbCat = s.fbCat)

/-! ### Faults -/

/-- Every fault is precise (R343) and enters as R346 says: a command that leaves the engine faulted has changed the
latch, the one log and the response, and nothing else. -/
def Obligations.FaultsArePrecise : Prop :=
  ∀ (i : Instr) (s t : State), exec i s = .next t → s.faulted = false → t.faulted = true →
    ∃ (c : FaultCode) (info : Nat), t = { s with
      faulted := true
      faultCode := c.code
      faultInfo := BitVec.ofNat 32 info
      events := s.events ++ [.log .error .fFault]
      resp := some ⟨.fault, .byte c.code⟩ }

/-- While faulted every command word other than a legal RD_STATUS, an illegal one too, answers `(FAULT, S.FAULT_CODE)`
and does nothing else; RD_STATUS answers its word (R347). The first fault's latch stands until a reset (R349). That
RD_STATUS then does not look at the data port, so that it answers whatever `d` is, is the model's choice (log 6). -/
def Obligations.FaultedEngineAnswersOnlyStatus : Prop :=
  ∀ (s : State), s.faulted = true →
    (∀ (w : Word) (d : Data) (rest : List Input), s.inputs = .command w d :: rest →
      (∀ sel, w ≠ encode (.rdStatus sel)) →
      step s = .next { s with inputs := rest, data := d, resp := some ⟨.fault, .byte s.faultCode⟩ }) ∧
    (∀ (sel : StatusSel) (d : Data) (rest : List Input), s.inputs = .command (encode (.rdStatus sel)) d :: rest →
      step s = .next { s with inputs := rest, data := d, resp := some ⟨.ok, .word (s.selectedWord sel)⟩ }) ∧
    (∀ (x : Input) (rest : List Input) (t : State), s.inputs = x :: rest → (∀ c, x ≠ .reset c) → step s = .next t →
      t.faulted = true ∧ t.faultCode = s.faultCode ∧ t.faultInfo = s.faultInfo ∧ t.events = s.events)

/-- "A `D` of the wrong type or length raises `Fault(DATA_RANGE, OPC)`" (R107), for every command; that a command with
no operand asks for an empty port is the table's last row (log 5). -/
def Obligations.WrongDataOperandRaisesDataRange : Prop :=
  ∀ (i : Instr) (s : State), i.encoding = .command → s.faulted = false → operandFits i s.data = false →
    Raises i s .dataRange ((encode i).toNat / 2 ^ 24)

/-! ### Circular byte buffer -/

/-- RB_SIZE and RB_PEEK read the buffer and change nothing; RB_POP removes and returns the oldest byte, and raises
RB_UNDERFLOW on an empty buffer (R140, R142, R143). -/
def Obligations.RingSizePeekAndPop : Prop :=
  ∀ s : State, Ready s .empty →
    Answers .rbSize s ⟨.ok, .word (BitVec.ofNat 32 s.rbQ.length)⟩ s ∧
    (∀ cnt : BitVec 9,
      (∀ h : cnt.toNat < s.rbQ.length, Answers (.rbPeek cnt) s ⟨.ok, .byte s.rbQ[cnt.toNat]⟩ s) ∧
      (s.rbQ.length ≤ cnt.toNat → Raises (.rbPeek cnt) s .rbRange cnt.toNat)) ∧
    (s.rbQ = [] → Raises .rbPop s .rbUnderflow 0) ∧
    (∀ b rest, s.rbQ = b :: rest → Answers .rbPop s ⟨.ok, .byte b⟩ { s with rbQ := rest })

/-- RB_PUSH appends its bytes where they fit, and otherwise raises RB_OVERFLOW; an operand of another length raises
DATA_RANGE (R141). -/
def Obligations.RingPush : Prop :=
  ∀ (s : State) (cnt : BitVec 9) (D : List Byte), Ready s (.bytes D) →
    (D.length ≠ cnt.toNat → Raises (.rbPush cnt) s .dataRange 0x02) ∧
    (D.length = cnt.toNat → s.rbQ.length + cnt.toNat ≤ s.cfg.rbCap.toNat →
      Answers (.rbPush cnt) s ⟨.ok, .empty⟩ { s with rbQ := s.rbQ ++ D }) ∧
    (D.length = cnt.toNat → s.cfg.rbCap.toNat < s.rbQ.length + cnt.toNat →
      Raises (.rbPush cnt) s .rbOverflow cnt.toNat)

/-- RB_DISCARD_UNTIL removes the bytes before the first marker, all of them where the marker is absent, and returns
their count (R144). -/
def Obligations.RingDiscardUntil : Prop :=
  ∀ (s : State) (mrk : Byte), Ready s .empty →
    ∃ gone kept, s.rbQ = gone ++ kept ∧ mrk ∉ gone ∧ (kept = [] ∨ kept.head? = some mrk) ∧
      Answers (.rbDiscardUntil mrk) s ⟨.ok, .word (BitVec.ofNat 32 gone.length)⟩ { s with rbQ := kept }

/-! ### Bit fields -/

/-- RD_BITS reads the field `(B[OFF] >> sh) & mask(W)`, after the shape and bounds checks in that order (R161). -/
def Obligations.ReadBits : Prop :=
  ∀ (s : State) (v : View) (off : BitVec 9) (bit : BitVec 4) (w : BitVec 6), Ready s .empty →
    (¬ (1 ≤ bit.toNat ∧ bit.toNat ≤ 8 ∧ 1 ≤ w.toNat ∧ bit.toNat + w.toNat ≤ 9) →
      Raises (.rdBits v off bit w) s .fieldShape (encode (.rdBits v off bit w)).toNat) ∧
    (1 ≤ bit.toNat ∧ bit.toNat ≤ 8 ∧ 1 ≤ w.toNat ∧ bit.toNat + w.toNat ≤ 9 → (s.view v).length ≤ off.toNat →
      Raises (.rdBits v off bit w) s .viewBounds off.toNat) ∧
    (1 ≤ bit.toNat ∧ bit.toNat ≤ 8 ∧ 1 ≤ w.toNat ∧ bit.toNat + w.toNat ≤ 9 → off.toNat < (s.view v).length →
      Answers (.rdBits v off bit w) s
        ⟨.ok, .word (BitVec.ofNat 32
          ((byteAt (s.view v) off.toNat).toNat / 2 ^ (9 - bit.toNat - w.toNat) % 2 ^ w.toNat))⟩ s)

/-- WR_BITS checks permission, shape, bounds and value in that order, and then writes the value's bits into the field
of one byte of the view; every other bit of that byte and every other byte is as before, and RD_BITS of the field then
answers the value (R162). -/
def Obligations.WriteBits : Prop :=
  ∀ (s : State) (v : View) (off : BitVec 9) (bit : BitVec 4) (w : BitVec 6) (D : Nat), Ready s (.nat D) →
    (readOnly v = true → Raises (.wrBits v off bit w) s .viewRo (viewNumber v)) ∧
    (readOnly v = false → ¬ (1 ≤ bit.toNat ∧ bit.toNat ≤ 8 ∧ 1 ≤ w.toNat ∧ bit.toNat + w.toNat ≤ 9) →
      Raises (.wrBits v off bit w) s .fieldShape (encode (.wrBits v off bit w)).toNat) ∧
    (readOnly v = false → 1 ≤ bit.toNat ∧ bit.toNat ≤ 8 ∧ 1 ≤ w.toNat ∧ bit.toNat + w.toNat ≤ 9 →
      ((s.view v).length ≤ off.toNat → Raises (.wrBits v off bit w) s .viewBounds off.toNat) ∧
      (off.toNat < (s.view v).length → 2 ^ w.toNat ≤ D → Raises (.wrBits v off bit w) s .dataRange D) ∧
      (off.toNat < (s.view v).length → D < 2 ^ w.toNat →
        ∃ (t : State) (b : Byte), Answers (.wrBits v off bit w) s ⟨.ok, .empty⟩ t ∧ Stored s t v off.toNat [b] ∧
          (∀ j < 8, b.getLsbD j =
            if 9 - bit.toNat - w.toNat ≤ j ∧ j < 9 - bit.toNat then D.testBit (j - (9 - bit.toNat - w.toNat))
            else (byteAt (s.view v) off.toNat).getLsbD j) ∧
          Answers (.rdBits v off bit w) { t with data := .empty } ⟨.ok, .word (BitVec.ofNat 32 D)⟩
            { t with data := .empty }))

/-- RD_BYTES reads 1 to 4 bytes little-endian, RD_ARRAY any number from 1 as they stand; both after their shape and
bounds checks (R163, R165). -/
def Obligations.ReadBytesAndArrays : Prop :=
  ∀ (s : State) (v : View) (off : BitVec 9) (w : BitVec 6), Ready s .empty →
    (¬ (1 ≤ w.toNat ∧ w.toNat ≤ 4) → Raises (.rdBytes v off w) s .fieldShape (encode (.rdBytes v off w)).toNat) ∧
    (1 ≤ w.toNat ∧ w.toNat ≤ 4 → (s.view v).length < off.toNat + w.toNat →
      Raises (.rdBytes v off w) s .viewBounds off.toNat) ∧
    (1 ≤ w.toNat ∧ w.toNat ≤ 4 → off.toNat + w.toNat ≤ (s.view v).length →
      Answers (.rdBytes v off w) s
        ⟨.ok, .word (BitVec.ofNat 32
          (((List.range w.toNat).map (fun i => (byteAt (s.view v) (off.toNat + i)).toNat * 256 ^ i)).sum))⟩ s) ∧
    (w.toNat = 0 → Raises (.rdArray v off w) s .fieldShape (encode (.rdArray v off w)).toNat) ∧
    (1 ≤ w.toNat → (s.view v).length < off.toNat + w.toNat → Raises (.rdArray v off w) s .viewBounds off.toNat) ∧
    (1 ≤ w.toNat → off.toNat + w.toNat ≤ (s.view v).length →
      Answers (.rdArray v off w) s
        ⟨.ok, .bytes ((List.range w.toNat).map (fun i => byteAt (s.view v) (off.toNat + i)))⟩ s)

/-- WR_BYTES checks permission, shape, bounds and value in that order, and then stores the value's bytes, the less
significant at the lower offset; every other byte is as before (R164). -/
def Obligations.WriteBytes : Prop :=
  ∀ (s : State) (v : View) (off : BitVec 9) (w : BitVec 6) (D : Nat), Ready s (.nat D) →
    (readOnly v = true → Raises (.wrBytes v off w) s .viewRo (viewNumber v)) ∧
    (readOnly v = false → ¬ (1 ≤ w.toNat ∧ w.toNat ≤ 4) →
      Raises (.wrBytes v off w) s .fieldShape (encode (.wrBytes v off w)).toNat) ∧
    (readOnly v = false → 1 ≤ w.toNat ∧ w.toNat ≤ 4 →
      ((s.view v).length < off.toNat + w.toNat → Raises (.wrBytes v off w) s .viewBounds off.toNat) ∧
      (off.toNat + w.toNat ≤ (s.view v).length → 256 ^ w.toNat ≤ D → Raises (.wrBytes v off w) s .dataRange D) ∧
      (off.toNat + w.toNat ≤ (s.view v).length → D < 256 ^ w.toNat →
        ∃ t : State, Answers (.wrBytes v off w) s ⟨.ok, .empty⟩ t ∧
          Stored s t v off.toNat ((List.range w.toNat).map (fun i => BitVec.ofNat 8 (D / 256 ^ i)))))

/-- WR_ARRAY checks the operand's length, permission, shape and bounds in that order, and then stores the bytes as
they stand; every other byte is as before (R166). -/
def Obligations.WriteArray : Prop :=
  ∀ (s : State) (v : View) (off : BitVec 9) (w : BitVec 6) (D : List Byte), Ready s (.bytes D) →
    (D.length ≠ w.toNat → Raises (.wrArray v off w) s .dataRange 0x15) ∧
    (D.length = w.toNat →
      (readOnly v = true → Raises (.wrArray v off w) s .viewRo (viewNumber v)) ∧
      (readOnly v = false → w.toNat = 0 →
        Raises (.wrArray v off w) s .fieldShape (encode (.wrArray v off w)).toNat) ∧
      (readOnly v = false → 1 ≤ w.toNat → (s.view v).length < off.toNat + w.toNat →
        Raises (.wrArray v off w) s .viewBounds off.toNat) ∧
      (readOnly v = false → 1 ≤ w.toNat → off.toNat + w.toNat ≤ (s.view v).length →
        ∃ t : State, Answers (.wrArray v off w) s ⟨.ok, .empty⟩ t ∧ Stored s t v off.toNat D))

/-! ### Codecs -/

/-- The checks every codec command makes first, in their order: SLOT_RANGE, SLOT_KIND, VIEW_RO, and DATA_RANGE for a
value of the wrong constructor (R191, R192); SLOT_WRITE makes its own MODE check before the last (R227). -/
def Obligations.SlotOperandChecks : Prop :=
  ∀ (s : State) (k : Kind) (v : View) (slot : BitVec 8) (x : Value), s.faulted = false →
    (s.data = .empty → s.cfg.slots.length ≤ slot.toNat →
      Raises (decoderOf k v slot) s .slotRange slot.toNat ∧ Raises (.slotNotify slot) s .slotRange slot.toNat) ∧
    (s.data = .value x → s.cfg.slots.length ≤ slot.toNat →
      Raises (encoderOf k v slot) s .slotRange slot.toNat ∧ Raises (.slotWrite slot) s .slotRange slot.toNat) ∧
    ∀ d, s.cfg.slots[slot.toNat]? = some d →
      (s.data = .empty → d.kind ≠ k → Raises (decoderOf k v slot) s .slotKind slot.toNat) ∧
      (s.data = .value x → d.kind ≠ k → Raises (encoderOf k v slot) s .slotKind slot.toNat) ∧
      (s.data = .value x → d.kind = k → readOnly v = true → Raises (encoderOf k v slot) s .viewRo (viewNumber v)) ∧
      (s.data = .value x → d.kind = k → readOnly v = false → kindTakes k x = false →
        Raises (encoderOf k v slot) s .dataRange slot.toNat) ∧
      (s.data = .value x → d.mode ≠ .r → kindTakes d.kind x = false →
        Raises (.slotWrite slot) s .dataRange slot.toNat)

/-- Short views are not errors (R190): the required size of each kind; a decode of a view shorter than it answers
ABSENT, an encode answers NO_EFFECT, and neither changes anything. -/
def Obligations.ShortViewsAreNotErrors : Prop :=
  ∀ (s : State) (v : View) (slot : BitVec 8) (d : Slot) (x : Value),
    s.faulted = false → s.cfg.slots[slot.toNat]? = some d →
    (d.req =
      match d.codec with
      | .tri => d.byte + 1
      | .scaled _ _ => d.byte + d.width / 8
      | .index _ => d.byte + 1
      | .keyed _ => d.byte + (d.bit - 1 + d.width + 7) / 8
      | .custom _ _ => 0) ∧
    ((s.view v).length < d.req →
      (s.data = .empty → Answers (decoderOf d.kind v slot) s ⟨.absent, .empty⟩ s) ∧
      (s.data = .value x → readOnly v = false → kindTakes d.kind x = true →
        Answers (encoderOf d.kind v slot) s ⟨.noEffect, .empty⟩ s))

/-- DEC_TRI: the two bits of the field, the higher first: 00 absent, 11 absent with the warning, 01 false, 10 true
(R195). -/
def Obligations.DecodeTriState : Prop :=
  ∀ (s : State) (v : View) (slot : BitVec 8) (d : Slot),
    Ready s .empty → s.cfg.slots[slot.toNat]? = some d → d.codec = .tri → 1 ≤ d.bit → d.bit ≤ 7 →
    ((s.view v).length ≤ d.byte → Answers (.decTri v slot) s ⟨.absent, .empty⟩ s) ∧
    (d.byte < (s.view v).length →
      match (byteAt (s.view v) d.byte).getLsbD (8 - d.bit), (byteAt (s.view v) d.byte).getLsbD (7 - d.bit) with
      | false, false => Answers (.decTri v slot) s ⟨.absent, .empty⟩ s
      | true, true =>
        Answers (.decTri v slot) s ⟨.absent, .empty⟩ { s with events := s.events ++ [.log .warning .wTriInvalid] }
      | false, true => Answers (.decTri v slot) s ⟨.ok, .value (.bool false)⟩ s
      | true, false => Answers (.decTri v slot) s ⟨.ok, .value (.bool true)⟩ s)

/-- ENC_TRI writes 10 for true and 01 for false into the field and no other bit (R196). -/
def Obligations.EncodeTriState : Prop :=
  ∀ (s : State) (v : View) (slot : BitVec 8) (d : Slot) (b : Bool),
    Ready s (.value (.bool b)) → s.cfg.slots[slot.toNat]? = some d → d.codec = .tri → 1 ≤ d.bit → d.bit ≤ 7 →
    readOnly v = false →
    ((s.view v).length ≤ d.byte → Answers (.encTri v slot) s ⟨.noEffect, .empty⟩ s) ∧
    (d.byte < (s.view v).length →
      ∃ (t : State) (new : Byte), Answers (.encTri v slot) s ⟨.ok, .empty⟩ t ∧ Stored s t v d.byte [new] ∧
        new.getLsbD (8 - d.bit) = b ∧ new.getLsbD (7 - d.bit) = !b ∧
        ∀ j < 8, j ≠ 8 - d.bit → j ≠ 7 - d.bit → new.getLsbD j = (byteAt (s.view v) d.byte).getLsbD j)

/-- DEC_SCALED answers `(raw + OFF) * MUL` in the arithmetic of `CFG.NUM`, `raw` the unsigned little-endian integer of
the field's bytes (R200); under this spec's `CFG.NUM` that is the exact rational number (R202). -/
def Obligations.DecodeScaled : Prop :=
  ∀ (s : State) (v : View) (slot : BitVec 8) (d : Slot) (mul off : Rat) (raw : Nat),
    Ready s .empty → s.cfg.slots[slot.toNat]? = some d → d.codec = .scaled mul off →
    raw = ((List.range (d.width / 8)).map (fun i => (byteAt (s.view v) (d.byte + i)).toNat * 256 ^ i)).sum →
    ((s.view v).length < d.byte + d.width / 8 → Answers (.decScaled v slot) s ⟨.absent, .empty⟩ s) ∧
    (d.byte + d.width / 8 ≤ (s.view v).length →
      Answers (.decScaled v slot) s
        ⟨.ok, .value (.num (s.cfg.num.mul (s.cfg.num.add (s.cfg.num.ofNat raw) off) mul))⟩ s ∧
      (s.cfg.num = .exactRationals →
        Answers (.decScaled v slot) s ⟨.ok, .value (.num (((raw : Rat) + off) * mul))⟩ s))

/-- ENC_SCALED truncates `q / MUL - OFF` in the arithmetic of `CFG.NUM`, under this spec's the exact rational number
toward zero (R202); it raises ENC_RANGE where that does not fit the field's bytes, and otherwise stores it
little-endian; every other byte is as before (R201). -/
def Obligations.EncodeScaled : Prop :=
  ∀ (s : State) (v : View) (slot : BitVec 8) (d : Slot) (mul off q : Rat) (r : Int),
    Ready s (.value (.num q)) → s.cfg.slots[slot.toNat]? = some d → d.codec = .scaled mul off →
    readOnly v = false → r = s.cfg.num.trunc (s.cfg.num.sub (s.cfg.num.div q mul) off) →
    (s.cfg.num = .exactRationals → r = (if q / mul - off < 0 then ⌈q / mul - off⌉ else ⌊q / mul - off⌋)) ∧
    ((s.view v).length < d.byte + d.width / 8 → Answers (.encScaled v slot) s ⟨.noEffect, .empty⟩ s) ∧
    (d.byte + d.width / 8 ≤ (s.view v).length → (r < 0 ∨ (256 ^ (d.width / 8) : Int) ≤ r) →
      Raises (.encScaled v slot) s .encRange slot.toNat) ∧
    (d.byte + d.width / 8 ≤ (s.view v).length → 0 ≤ r → r < (256 ^ (d.width / 8) : Int) →
      ∃ t : State, Answers (.encScaled v slot) s ⟨.ok, .empty⟩ t ∧
        Stored s t v d.byte ((List.range (d.width / 8)).map (fun i => BitVec.ofNat 8 (r.toNat / 256 ^ i))))

/-- DEC_INDEX takes the field as a 1-based index: 0 absent, above the table absent with the warning, else the string
(R205). -/
def Obligations.DecodeIndex : Prop :=
  ∀ (s : State) (v : View) (slot : BitVec 8) (d : Slot) (table : List String) (raw : Nat),
    Ready s .empty → s.cfg.slots[slot.toNat]? = some d → d.codec = .index table →
    1 ≤ d.bit → 1 ≤ d.width → d.bit + d.width ≤ 9 →
    raw = (byteAt (s.view v) d.byte).toNat / 2 ^ (9 - d.bit - d.width) % 2 ^ d.width →
    ((s.view v).length ≤ d.byte → Answers (.decIndex v slot) s ⟨.absent, .empty⟩ s) ∧
    (d.byte < (s.view v).length → raw = 0 → Answers (.decIndex v slot) s ⟨.absent, .empty⟩ s) ∧
    (d.byte < (s.view v).length → table.length < raw →
      Answers (.decIndex v slot) s ⟨.absent, .empty⟩
        { s with events := s.events ++ [.log .warning .wIndexRange] }) ∧
    (d.byte < (s.view v).length → 1 ≤ raw → ∀ h : raw - 1 < table.length,
      Answers (.decIndex v slot) s ⟨.ok, .value (.str table[raw - 1])⟩ s)

/-- ENC_INDEX writes the least position of the string plus one into the field and no other bit; a string not in the
table has no effect but the warning (R206). -/
def Obligations.EncodeIndex : Prop :=
  ∀ (s : State) (v : View) (slot : BitVec 8) (d : Slot) (table : List String) (u : String),
    Ready s (.value (.str u)) → s.cfg.slots[slot.toNat]? = some d → d.codec = .index table →
    Slot.ok s.cfg d = true → readOnly v = false →
    ((s.view v).length ≤ d.byte → Answers (.encIndex v slot) s ⟨.noEffect, .empty⟩ s) ∧
    (d.byte < (s.view v).length → u ∉ table →
      Answers (.encIndex v slot) s ⟨.noEffect, .empty⟩
        { s with events := s.events ++ [.log .warning .wEncUnknown] }) ∧
    (d.byte < (s.view v).length → ∀ p < table.length, table[p]? = some u → (∀ p' < p, table[p']? ≠ some u) →
      ∃ (t : State) (new : Byte), Answers (.encIndex v slot) s ⟨.ok, .empty⟩ t ∧ Stored s t v d.byte [new] ∧
        ∀ j < 8, new.getLsbD j =
          if 9 - d.bit - d.width ≤ j ∧ j < 9 - d.bit then (p + 1).testBit (j - (9 - d.bit - d.width))
          else (byteAt (s.view v) d.byte).getLsbD j)

/-- DEC_KEYED looks the field's bytes up with every bit outside the field cleared: the pair's string, or `Undef` with
status OK where no key is equal (R211, R212). -/
def Obligations.DecodeKeyed : Prop :=
  ∀ (s : State) (v : View) (slot : BitVec 8) (d : Slot) (map : List (List Byte × String)) (K : List Byte),
    Ready s .empty → s.cfg.slots[slot.toNat]? = some d → d.codec = .keyed map → Slot.ok s.cfg d = true →
    ((s.view v).length < d.byte + keyLength d.bit d.width → Answers (.decKeyed v slot) s ⟨.absent, .empty⟩ s) ∧
    (d.byte + keyLength d.bit d.width ≤ (s.view v).length → K.length = keyLength d.bit d.width →
      (∀ i < K.length, ∀ j < 8, inField d (d.byte + i) j →
        (byteAt K i).getLsbD j = (byteAt (s.view v) (d.byte + i)).getLsbD j) →
      (∀ i < K.length, ∀ j < 8, ¬ inField d (d.byte + i) j → (byteAt K i).getLsbD j = false) →
      (∀ u, (K, u) ∈ map → Answers (.decKeyed v slot) s ⟨.ok, .value (.str u)⟩ s) ∧
      ((∀ u, (K, u) ∉ map) → Answers (.decKeyed v slot) s ⟨.ok, .value .undef⟩ s))

/-- ENC_KEYED writes the key of the string's first pair into the field and no bit outside it; `Undef` and a string
that has no key have no effect but the warning (R213). -/
def Obligations.EncodeKeyed : Prop :=
  ∀ (s : State) (v : View) (slot : BitVec 8) (d : Slot) (map : List (List Byte × String)) (x : Value),
    Ready s (.value x) → s.cfg.slots[slot.toNat]? = some d → d.codec = .keyed map → Slot.ok s.cfg d = true →
    readOnly v = false → kindTakes .keyed x = true →
    ((s.view v).length < d.byte + keyLength d.bit d.width →
      Answers (.encKeyed v slot) s ⟨.noEffect, .empty⟩ s) ∧
    (d.byte + keyLength d.bit d.width ≤ (s.view v).length → (∀ e ∈ map, x ≠ .str e.2) →
      Answers (.encKeyed v slot) s ⟨.noEffect, .empty⟩
        { s with events := s.events ++ [.log .warning .wEncUnknown] }) ∧
    (d.byte + keyLength d.bit d.width ≤ (s.view v).length →
      ∀ (before after : List (List Byte × String)) (key : List Byte) (u : String),
        x = .str u → map = before ++ (key, u) :: after → (∀ e ∈ before, e.2 ≠ u) →
        ∃ (t : State) (new : List Byte), Answers (.encKeyed v slot) s ⟨.ok, .empty⟩ t ∧ Stored s t v d.byte new ∧
          new.length = keyLength d.bit d.width ∧
          ∀ i < new.length, ∀ j < 8,
            (inField d (d.byte + i) j → (byteAt new i).getLsbD j = (byteAt key i).getLsbD j) ∧
            (¬ inField d (d.byte + i) j →
              (byteAt new i).getLsbD j = (byteAt (s.view v) (d.byte + i)).getLsbD j))

/-- DEC_CUSTOM and ENC_CUSTOM call the supplied functions: no function gives ABSENT and NO_EFFECT, and an encoder's
result of another length raises DATA_RANGE (R218, R219). It holds whatever the supplied functions are. -/
def Obligations.CustomCodecs : Prop :=
  ∀ (s : State) (v : View) (slot : BitVec 8) (d : Slot) (dec : Option DecFn) (enc : Option EncFn) (x : Value),
    s.faulted = false → s.cfg.slots[slot.toNat]? = some d → d.codec = .custom dec enc →
    (s.data = .empty →
      (dec = none → Answers (.decCustom v slot) s ⟨.absent, .empty⟩ s) ∧
      (∀ f, dec = some f → decFnApply f (s.view v) = none → Answers (.decCustom v slot) s ⟨.absent, .empty⟩ s) ∧
      (∀ f y, dec = some f → decFnApply f (s.view v) = some y →
        Answers (.decCustom v slot) s ⟨.ok, .value y⟩ s)) ∧
    (s.data = .value x → readOnly v = false →
      (enc = none → Answers (.encCustom v slot) s ⟨.noEffect, .empty⟩ s) ∧
      (∀ f, enc = some f → (encFnApply f (s.view v) x).length ≠ (s.view v).length →
        Raises (.encCustom v slot) s .dataRange slot.toNat) ∧
      (∀ f, enc = some f → (encFnApply f (s.view v) x).length = (s.view v).length →
        ∃ t : State, Answers (.encCustom v slot) s ⟨.ok, .empty⟩ t ∧
          Stored s t v 0 (encFnApply f (s.view v) x)))

/-- THE ROUND-TRIP LAW (R230): for a well-formed writable slot that is not custom, a view at least as long as its
required size and a value in the slot's domain, decoding what the encode wrote gives the value back, and every bit
outside the field keeps its value. The scaled codec's law is that of exact `CFG.NUM`. -/
def Obligations.CodecRoundTrip : Prop :=
  ∀ (c : Config) (d : Slot) (V : List Byte) (x : Value),
    Slot.ok c d = true → d.mode ≠ .r → d.req ≤ V.length →
    ((d.codec = .tri ∧ ∃ b, x = .bool b) ∨
      (c.num = .exactRationals ∧ ∃ mul off, d.codec = .scaled mul off ∧
        ∃ raw : Nat, raw < 2 ^ d.width ∧ x = .num (((raw : Rat) + off) * mul)) ∨
      (∃ table, d.codec = .index table ∧ ∃ u ∈ table, x = .str u) ∨
      (∃ map, d.codec = .keyed map ∧ ∃ e ∈ map, x = .str e.2)) →
    ∃ V', slotEncode c.num d V x = .written V' ∧ slotDecode c.num d V' = ⟨some x, []⟩ ∧ V'.length = V.length ∧
      ∀ i < V.length, ∀ j < 8, ¬ inField d i j → (byteAt V' i).getLsbD j = (byteAt V i).getLsbD j

/-- SLOT_NOTIFY (R226), with one cell per slot: the two checks; an absent decode publishes nothing and leaves the cell;
a value equal to the cell's publishes nothing; another one is recorded and published. -/
def Obligations.SlotNotifyPublishesNewValues : Prop :=
  ∀ (s : State) (slot : BitVec 8), Ready s .empty → cellsSound s →
    (s.cfg.slots.length ≤ slot.toNat → Raises (.slotNotify slot) s .slotRange slot.toNat) ∧
    ∀ (d : Slot) (r : Decoded), s.cfg.slots[slot.toNat]? = some d → r = slotDecode s.cfg.num d (s.view .v0) →
      (d.mode = .w → Raises (.slotNotify slot) s .slotMode slot.toNat) ∧
      (d.mode ≠ .w → r.value = none →
        Answers (.slotNotify slot) s ⟨.absent, .empty⟩ { s with events := s.events ++ r.logs }) ∧
      (∀ x, d.mode ≠ .w → r.value = some x → s.dedup[slot.toNat]? = some (some x) →
        Answers (.slotNotify slot) s ⟨.ok, .bool false⟩ { s with events := s.events ++ r.logs }) ∧
      (∀ x, d.mode ≠ .w → r.value = some x → s.dedup[slot.toNat]? ≠ some (some x) →
        Answers (.slotNotify slot) s ⟨.ok, .bool true⟩
          { s with
            dedup := s.dedup.set slot.toNat (some x)
            events := s.events ++ r.logs ++ [.publish slot.toNat x] })

/-- SLOT_WRITE (R227): the three checks; then it encodes into the pending command buffer and sets DIRTY, also where the
encode has no effect; a fault of the encoder is the command's, with DIRTY as before. It does not transmit. -/
def Obligations.SlotWriteMarksDirty : Prop :=
  ∀ (s : State) (slot : BitVec 8) (x : Value), Ready s (.value x) →
    (s.cfg.slots.length ≤ slot.toNat → Raises (.slotWrite slot) s .slotRange slot.toNat) ∧
    ∀ d : Slot, s.cfg.slots[slot.toNat]? = some d →
      (d.mode = .r → Raises (.slotWrite slot) s .slotMode slot.toNat) ∧
      (d.mode ≠ .r → kindTakes d.kind x = false → Raises (.slotWrite slot) s .dataRange slot.toNat) ∧
      (d.mode ≠ .r → kindTakes d.kind x = true →
        (∀ V, slotEncode s.cfg.num d (s.view .v1) x = .written V →
          ∃ t : State, Answers (.slotWrite slot) s ⟨.ok, .empty⟩ { t with dirty := true } ∧ Stored s t .v1 0 V) ∧
        (∀ logs, slotEncode s.cfg.num d (s.view .v1) x = .noEffect logs →
          Answers (.slotWrite slot) s ⟨.noEffect, .empty⟩ { s with dirty := true, events := s.events ++ logs }) ∧
        (∀ c, slotEncode s.cfg.num d (s.view .v1) x = .fails c → Raises (.slotWrite slot) s c slot.toNat))

/-! ### Frames -/

/-- The checksum function (R240): `sum8` is the byte sum modulo 256, `ck` its two's complement, and appending the
checksum makes the sum 0. -/
def Obligations.ChecksumMakesTheSumZero : Prop :=
  ∀ B : List Byte,
    (sum8 B).toNat = (B.map BitVec.toNat).sum % 256 ∧
    (ck B).toNat = (256 - (B.map BitVec.toNat).sum % 256) % 256 ∧
    sum8 (B ++ [ck B]) = 0

/-- CK_GEN writes the checksum byte of the frame in TXB, after which the frame is checksum-valid, and raises
VIEW_BOUNDS where no frame of 5 bytes is there; CK_CHK answers the byte sum of a view (R241, R242). -/
def Obligations.ChecksumCommands : Prop :=
  ∀ s : State, Ready s .empty →
    (s.txbLen < 5 → Raises .ckGen s .viewBounds s.txbLen) ∧
    (5 ≤ s.txbLen →
      ∃ t : State, Answers .ckGen s ⟨.ok, .byte (ck ((s.view .v2).take (s.txbLen - 1)))⟩ t ∧
        Stored s t .v2 (s.txbLen - 1) [ck ((s.view .v2).take (s.txbLen - 1))] ∧ sum8 (t.view .v2) = 0) ∧
    ∀ v, Answers (.ckChk v) s ⟨.ok, .byte (sum8 (s.view v))⟩ s

/-- PARSE in all its outcomes (R249 with the steps R244 to R248). `junk` is what alignment discards: no byte of it is
a preamble, and the rest is empty or starts with one. -/
def Obligations.ParseOutcomes : Prop :=
  ∀ (s : State) (junk q F : List Byte) (L : Nat),
    Ready s .empty → s.rbQ = junk ++ q → (∀ b ∈ junk, b ∉ s.cfg.rxPreambles) →
    (∀ b, q.head? = some b → b ∈ s.cfg.rxPreambles) → L = (byteAt q 1).toNat → F = q.take (L + 3) →
    (q = [] → Answers .parse s ⟨.needMore, .empty⟩ { s with rbQ := [] }) ∧
    (q.length < 5 → Answers .parse s ⟨.needMore, .empty⟩ { s with rbQ := q }) ∧
    (5 ≤ q.length → L ≤ s.cfg.minPacketSize →
      Answers .parse s ⟨.badLength, .empty⟩
        { s with
          rbQ := q.drop (min s.cfg.minPacketSize q.length)
          events := s.events ++ [.log .warning .wBadLength] }) ∧
    (5 ≤ q.length → s.cfg.minPacketSize < L → q.length < L + 3 →
      Answers .parse s ⟨.needMore, .empty⟩ { s with rbQ := q }) ∧
    (5 ≤ q.length → s.cfg.minPacketSize < L → L + 3 ≤ q.length → sum8 F ≠ 0 →
      Answers .parse s ⟨.badChecksum, .empty⟩
        { s with rbQ := q.drop (L + 3), events := s.events ++ [.log .warning .wBadChecksum] }) ∧
    (5 ≤ q.length → s.cfg.minPacketSize < L → L + 3 ≤ q.length → sum8 F = 0 →
      ∃ (t : State) (c : FrameClass), Answers .parse s ⟨.ok, .cls c⟩ t ∧
        (c = if byteAt F 3 = s.cfg.catInit then .init else if byteAt F 3 = s.cfg.catStd then .std
          else if byteAt F 3 = s.cfg.catExtra then .extra else .unknown) ∧
        t = { s with
          rbQ := q.drop (L + 3)
          fb := t.fb
          fbLen := L + 3
          fbCat := c
          events := s.events ++ (if c = .unknown then [.log .debug .dUnknownCat] else []) } ∧
        ∀ a, t.fb.read a = if a < L + 3 then byteAt F a else s.fb.read a)

/-- Parser progress (R250), under a well-formed configuration: PARSE answers with `parseBody`; an outcome other than
NEED_MORE removes at least `min(MIN_PACKET_SIZE, 5)` bytes; NEED_MORE leaves the buffer empty or headed by a preamble
and shorter than the frame its header announces; a run of PARSEs reaches NEED_MORE within `len(RB_Q) + 1` of them; and
a full buffer loses a byte. -/
def Obligations.ParserProgress : Prop :=
  ∀ s : State, s.cfg.wf = true →
    (Ready s .empty → Answers .parse s (parseBody s).1 (parseBody s).2) ∧
    ((parseBody s).1.status ≠ .needMore →
      (parseBody s).2.rbQ.length + min s.cfg.minPacketSize 5 ≤ s.rbQ.length) ∧
    ((parseBody s).1.status = .needMore →
      (parseBody s).2.rbQ = [] ∨
        ((∃ b ∈ s.cfg.rxPreambles, (parseBody s).2.rbQ.head? = some b) ∧
          ((parseBody s).2.rbQ.length < 5 ∨
            (parseBody s).2.rbQ.length < (byteAt (parseBody s).2.rbQ 1).toNat + 3))) ∧
    (∃ k ≤ s.rbQ.length, (parseBody ((fun u => (parseBody u).2)^[k] s)).1.status = .needMore) ∧
    (s.rbQ.length = s.cfg.rbCap.toNat → (parseBody s).2.rbQ.length < s.rbQ.length)

/-- SER_INIT, SER_STD, SER_EXT and SER_CMD each build their frame in TXB and change nothing else (R252 to R256). -/
def Obligations.SerializersBuildTheirFrames : Prop :=
  ∀ s : State, Ready s .empty →
    (∃ t, Answers .serInit s ⟨.ok, .empty⟩ t ∧ Built s t s.cfg.preInit s.cfg.catInit s.cfg.initPayload) ∧
    (∃ t, Answers .serStd s ⟨.ok, .empty⟩ t ∧
      Built s t s.cfg.prePoll s.cfg.catStd (List.replicate (s.cfg.pollLenField.toNat - 2) 0)) ∧
    (∃ t, Answers .serExt s ⟨.ok, .empty⟩ t ∧
      Built s t s.cfg.prePoll s.cfg.catExtra (List.replicate (s.cfg.pollLenField.toNat - 2) 0)) ∧
    (∃ t, Answers .serCmd s ⟨.ok, .empty⟩ t ∧ Built s t s.cfg.preCmd s.cfg.cmdCategory (s.view .v1))

/-- THE SERIALIZER INVARIANT (R258): after each serializer the frame in TXB sums to 0, its byte 1 is `TXB_LEN - 3`, and
PARSE of exactly those bytes accepts them with the class of the category written. -/
def Obligations.SerializedFramesParse : Prop :=
  ∀ (s t u : State) (i : Instr) (cat : Byte),
    s.cfg.wf = true → Ready s .empty →
    ((i = .serInit ∧ cat = s.cfg.catInit) ∨ (i = .serStd ∧ cat = s.cfg.catStd) ∨
      (i = .serExt ∧ cat = s.cfg.catExtra) ∨ (i = .serCmd ∧ cat = s.cfg.cmdCategory)) →
    exec i s = .next t → Ready u .empty → u.cfg = s.cfg → u.rbQ = t.view .v2 →
    sum8 (t.view .v2) = 0 ∧ (byteAt (t.view .v2) 1).toNat = t.txbLen - 3 ∧
    ∃ p : State, exec .parse u = .next p ∧ p.rbQ = [] ∧ p.view .v3 = t.view .v2 ∧
      p.resp = some ⟨.ok, .cls (classOf s.cfg cat)⟩

/-- TX_SEND writes the built frame to PRI and leaves it in TXB; with no frame built it has no effect (R257). -/
def Obligations.TransmitSendsTheBuiltFrame : Prop :=
  ∀ s : State, Ready s .empty →
    (s.txbLen = 0 → Answers .txSend s ⟨.noEffect, .empty⟩ s) ∧
    (s.txbLen ≠ 0 → Answers .txSend s ⟨.ok, .empty⟩ { s with priTx := s.priTx ++ s.view .v2 })

/-- The FRAME_TX_* rows: each builds its frame as the rule it cites says (R253 to R256), with `CFG.DIR_TX` as direction
(R125) whatever the row's free bytes. That the rows are run at all is the model's choice (log 7). -/
def Obligations.FrameTxRowsBuildTheirFrames : Prop :=
  ∀ (s : State) (dir cat : Byte), s.faulted = false →
    (∃ t, Answers (.frameTxInit dir) s ⟨.ok, .empty⟩ t ∧
      Built s t s.cfg.preInit s.cfg.catInit s.cfg.initPayload) ∧
    (∃ t, Answers (.frameTxStdPoll dir) s ⟨.ok, .empty⟩ t ∧
      Built s t s.cfg.prePoll s.cfg.catStd (List.replicate (s.cfg.pollLenField.toNat - 2) 0)) ∧
    (∃ t, Answers (.frameTxExtPoll dir) s ⟨.ok, .empty⟩ t ∧
      Built s t s.cfg.prePoll s.cfg.catExtra (List.replicate (s.cfg.pollLenField.toNat - 2) 0)) ∧
    (∃ t, Answers (.frameTxCmd dir cat) s ⟨.ok, .empty⟩ t ∧
      Built s t s.cfg.preCmd s.cfg.cmdCategory (s.view .v1))

/-- The FRAME_RX_* rows: the bytes of the frame, `B` those after its header, arrive on PRI and the RX_PRI command takes
them (R302), whatever the buffer and the transport hold and whether the frame is whole, valid or fits one batch; while
faulted they wait in the transport (R347). On an engine with an empty buffer and an empty transport, a whole
checksum-valid frame is read in one batch and accepted with the class of its category byte, and closes the transaction
(R244, R248). That the rows are run at all is the model's choice (log 8). -/
def Obligations.FrameRxRowsReceiveTheFrame : Prop :=
  ∀ (s : State) (i : Instr) (b0 b1 b2 b3 : Byte) (B : List Byte),
    (i = .frameRxPrePoll b1 b2 b3 ∧ b0 = 0x71 ∨ i = .frameRxPreCmd b1 b2 b3 ∧ b0 = 0xF1 ∨
      i = .frameRxPreInit b1 b2 b3 ∧ b0 = 0x31 ∨ i = .frameRxCatInit b0 b1 b2 ∧ b3 = 0x01 ∨
      i = .frameRxCatStd b0 b1 b2 ∧ b3 = 0x10 ∨ i = .frameRxCatExtra b0 b1 b2 ∧ b3 = 0x21) →
    B = restOf s.data →
    (s.faulted = true → exec i s = .next { s with
      priRx := s.priRx ++ ([b0, b1, b2, b3] ++ B), resp := some ⟨.fault, .byte s.faultCode⟩ }) ∧
    (s.faulted = false →
      ∃ u : State, exec .rxPri { s with data := .empty, priRx := s.priRx ++ ([b0, b1, b2, b3] ++ B) } = .next u ∧
        exec i s = .next { u with data := s.data }) ∧
    (s.faulted = false → s.cfg.wf = true → s.rbQ = [] → s.priRx = [] →
      b0 ∈ s.cfg.rxPreambles → s.cfg.minPacketSize < b1.toNat → B.length + 1 = b1.toNat →
      B.length + 4 ≤ s.cfg.rxChunkMax → sum8 ([b0, b1, b2, b3] ++ B) = 0 →
      ∃ t : State, exec i s = .next t ∧ t.resp = some ⟨.ok, .cls (classOf s.cfg b3)⟩ ∧
        t.view .v3 = [b0, b1, b2, b3] ++ B ∧ t.fbCat = classOf s.cfg b3 ∧ t.rbQ = [] ∧ t.priRx = [] ∧
        t.txnState = .idle ∧ t.txnTmr = false ∧
        t = { s with
          fb := t.fb, fbLen := t.fbLen, fbCat := t.fbCat, txnState := .idle, txnTmr := false,
          dedup := t.dedup, extraSup := t.extraSup, events := t.events, extTx := t.extTx, resp := t.resp,
          dispatchCount := t.dispatchCount })

/-! ### Arbiter -/

/-- The exclusive start and the stop (R280 to R283): a start on an idle bus opens the transaction and arms its timeout,
an external one also freezes polling; a start on a busy bus is refused with the log and changes no state; TXN_STOP
closes the transaction and cancels its timeout. -/
def Obligations.TransactionStartAndStop : Prop :=
  ∀ s : State, Ready s .empty →
    (s.txnState = .idle →
      Answers .txnStartInt s ⟨.ok, .bool true⟩ { s with txnState := .internal, txnTmr := true } ∧
      Answers .txnStartExt s ⟨.ok, .bool true⟩
        { s with txnState := .external, txnTmr := true, proxyActive := true, pollDis := true }) ∧
    (s.txnState ≠ .idle →
      Answers .txnStartInt s ⟨.busy, .bool false⟩ { s with events := s.events ++ [.log .error .eTxnBusy] } ∧
      Answers .txnStartExt s ⟨.busy, .bool false⟩ { s with events := s.events ++ [.log .error .eTxnBusy] }) ∧
    Answers .txnStop s ⟨.ok, .empty⟩ { s with txnState := .idle, txnTmr := false }

/-- The timeout forces the state back to idle (R296); the expiry of an unarmed timer, of any of the three, has no
effect and changes nothing (R295). -/
def Obligations.TimeoutAndUnarmedTimers : Prop :=
  ∀ s : State, Ready s .empty →
    (s.txnTmr = true → Answers .evTimeout s ⟨.ok, .empty⟩
      { s with txnState := .idle, txnTmr := false, events := s.events ++ [.log .warning .wTxnTimeout] }) ∧
    (s.txnTmr = false → Answers .evTimeout s ⟨.noEffect, .empty⟩ s) ∧
    (s.settleTmr = false → Answers .evSettle s ⟨.noEffect, .empty⟩ s) ∧
    (s.pstartTmr = false → Answers .evPstart s ⟨.noEffect, .empty⟩ s)

/-- DISPATCH is the loop of R297 over the visited slots in some order. Another order leaves the same state but for the
events, and the same events but for their order (R298). Which order it is, is a free value (log 10). -/
def Obligations.DispatchNotifiesInSomeOrder : Prop :=
  ∀ s : State, Ready s .empty →
    (s.fbCat ≠ .std → s.fbCat ≠ .extra → Answers .dispatch s ⟨.noEffect, .empty⟩ s) ∧
    (s.fbCat = .std ∨ s.fbCat = .extra →
      ∃ (t : State) (order : List Nat), Answers .dispatch s ⟨.ok, .empty⟩ t ∧
        order.Nodup ∧ (∀ n, n ∈ order ↔ Visited s s.fbCat n) ∧
        t = { order.foldl notifyRound s with
          extraSup := (if s.fbCat = .std then supportShown s.cfg.extraSupportPred (s.view .v0) else s.extraSup)
          dispatchCount := t.dispatchCount } ∧
        ∀ other : List Nat, other.Perm order →
          ({ other.foldl notifyRound s with events := [] } : State) = { order.foldl notifyRound s with events := [] } ∧
          (other.foldl notifyRound s).events.Perm (order.foldl notifyRound s).events)

/-- "A second DISPATCH of the same frame publishes nothing new, because every decoded value equals its cell" (R297),
with one cell per slot. -/
def Obligations.SecondDispatchPublishesNothing : Prop :=
  ∀ s t u : State, Ready s .empty → cellsSound s → exec .dispatch s = .next t → exec .dispatch t = .next u →
    u.dedup = t.dedup ∧ ∃ es, u.events = t.events ++ es ∧ ∀ n x, Event.publish n x ∉ es

/-- RX_PRI takes one batch, bounded by what is there, by `RX_CHUNK_MAX` and by the free space, mirrors it to EXT while
attached in an external transaction, and is then PARSE; an accepted frame is dispatched and closes the transaction
(R302). -/
def Obligations.ReceiveFromPrimary : Prop :=
  ∀ (s : State) (n : Nat), Ready s .empty →
    n = min s.priRx.length (min s.cfg.rxChunkMax (s.cfg.rbCap.toNat - s.rbQ.length)) →
    ∃ p : State,
      exec .parse { s with
        rbQ := s.rbQ ++ s.priRx.take n
        priRx := s.priRx.drop n
        extTx := s.extTx ++ (if s.extAttached = true ∧ s.txnState = .external then s.priRx.take n else []) } = .next p ∧
      ((∀ c, p.resp ≠ some ⟨.ok, .cls c⟩) → exec .rxPri s = .next p) ∧
      (∀ c, p.resp = some ⟨.ok, .cls c⟩ →
        ∃ q u : State, exec .dispatch p = .next q ∧ exec .txnStop q = .next u ∧
          exec .rxPri s = .next { u with resp := p.resp })

/-- RX_EXT (R303): nothing where EXT is not attached or holds nothing; on an idle bus an external transaction opens and
the batch is forwarded; in an external transaction it is forwarded; in an internal one it is discarded under DROP and
left unread under HOLD. -/
def Obligations.ReceiveFromExternal : Prop :=
  ∀ (s : State) (n : Nat), Ready s .empty → n = min s.extRx.length s.cfg.rxChunkMax →
    (s.extAttached = false → Answers .rxExt s ⟨.noEffect, .empty⟩ s) ∧
    (s.extRx = [] → Answers .rxExt s ⟨.noEffect, .empty⟩ s) ∧
    (s.extAttached = true → s.extRx ≠ [] →
      (s.txnState = .idle → Answers .rxExt s ⟨.ok, .empty⟩
        { s with
          txnState := .external, txnTmr := true, proxyActive := true, pollDis := true,
          priTx := s.priTx ++ s.extRx.take n, extRx := s.extRx.drop n }) ∧
      (s.txnState = .external → Answers .rxExt s ⟨.ok, .empty⟩
        { s with priTx := s.priTx ++ s.extRx.take n, extRx := s.extRx.drop n }) ∧
      (s.txnState = .internal → s.cfg.extContention = .drop → Answers .rxExt s ⟨.busy, .empty⟩
        { s with extRx := s.extRx.drop n }) ∧
      (s.txnState = .internal → s.cfg.extContention = .hold → Answers .rxExt s ⟨.busy, .empty⟩ s))

/-- FLUSH (R304): nothing where DIRTY is clear; BUSY with no log where a transaction is open; else an internal
transaction opens, the command frame built from PCB is sent, DIRTY clears and PCB is zero-filled. -/
def Obligations.FlushSendsThePendingCommand : Prop :=
  ∀ s : State, Ready s .empty →
    (s.dirty = false → Answers .flush s ⟨.noEffect, .empty⟩ s) ∧
    (s.dirty = true → s.txnState ≠ .idle → Answers .flush s ⟨.busy, .empty⟩ s) ∧
    (s.dirty = true → s.txnState = .idle →
      ∃ b t : State, Built s b s.cfg.preCmd s.cfg.cmdCategory (s.view .v1) ∧
        Answers .flush s ⟨.ok, .empty⟩ t ∧
        t = { b with
          txnState := .internal, txnTmr := true, dirty := false, pcb := t.pcb,
          priTx := s.priTx ++ b.view .v2 } ∧
        ∀ a, t.pcb.read a = 0)

/-- EV_LOOP is RX_PRI, then RX_EXT, then FLUSH, each on what the one before it left, and answers their three statuses
(R300). -/
def Obligations.LoopRunsTheThreeBodiesInOrder : Prop :=
  ∀ s : State, Ready s .empty →
    ∃ (a b c : State) (s1 s2 s3 : Response),
      exec .rxPri s = .next a ∧ exec .rxExt a = .next b ∧ exec .flush b = .next c ∧
      a.resp = some s1 ∧ b.resp = some s2 ∧ c.resp = some s3 ∧
      exec .evLoop s =
        .next { c with resp := some ⟨.ok, .bytes [s1.status.code, s2.status.code, s3.status.code]⟩ }

/-- EV_UPDATE (R306): nothing while polling is disabled; a busy bus refuses the poll with the log and does not count
it; else an internal transaction opens, a standard or an extended poll is sent by the counter's parity and EXTRA_SUP,
and the counter advances modulo 2^32. -/
def Obligations.UpdateSendsOnePoll : Prop :=
  ∀ s : State, Ready s .empty →
    (s.pollDis = true → Answers .evUpdate s ⟨.noEffect, .empty⟩ s) ∧
    (s.pollDis = false → s.txnState ≠ .idle →
      Answers .evUpdate s ⟨.busy, .empty⟩ { s with events := s.events ++ [.log .error .eTxnBusy] }) ∧
    (s.pollDis = false → s.txnState = .idle →
      ∃ b t : State,
        (s.pollCnt.toNat % 2 = 1 ∧ s.extraSup = true →
          Built s b s.cfg.prePoll s.cfg.catExtra (List.replicate (s.cfg.pollLenField.toNat - 2) 0) ∧
          Answers .evUpdate s ⟨.ok, .cls .extra⟩ t) ∧
        (¬ (s.pollCnt.toNat % 2 = 1 ∧ s.extraSup = true) →
          Built s b s.cfg.prePoll s.cfg.catStd (List.replicate (s.cfg.pollLenField.toNat - 2) 0) ∧
          Answers .evUpdate s ⟨.ok, .cls .std⟩ t) ∧
        t = { b with
          txnState := .internal, txnTmr := true, priTx := s.priTx ++ b.view .v2, pollCnt := t.pollCnt } ∧
        t.pollCnt.toNat = (s.pollCnt.toNat + 1) % 2 ^ 32)

/-- The two boot timers. EV_SETTLE (R309): nothing with its timer unarmed; while proxying only the timer clears; else
EXT is detached and the poll-start timer armed, and on an idle bus the handshake is sent in an internal transaction, on
a busy one it is skipped with the log. EV_PSTART (R310): nothing with its timer unarmed; while proxying only the timer
clears; else polling begins from count 0. -/
def Obligations.BootTimersHandshakeAndPolling : Prop :=
  ∀ s : State, Ready s .empty →
    (s.settleTmr = false → Answers .evSettle s ⟨.noEffect, .empty⟩ s) ∧
    (s.settleTmr = true →
      (s.proxyActive = true → Answers .evSettle s ⟨.ok, .empty⟩ { s with settleTmr := false }) ∧
      (s.proxyActive = false → s.txnState ≠ .idle → Answers .evSettle s ⟨.busy, .empty⟩
        { s with
          settleTmr := false, extAttached := false, pstartTmr := true,
          events := s.events ++ [.log .error .eTxnBusy] }) ∧
      (s.proxyActive = false → s.txnState = .idle →
        ∃ b : State, Built s b s.cfg.preInit s.cfg.catInit s.cfg.initPayload ∧
          Answers .evSettle s ⟨.ok, .empty⟩ { b with
            settleTmr := false, extAttached := false, pstartTmr := true,
            txnState := .internal, txnTmr := true, priTx := s.priTx ++ b.view .v2 })) ∧
    (s.pstartTmr = false → Answers .evPstart s ⟨.noEffect, .empty⟩ s) ∧
    (s.pstartTmr = true →
      (s.proxyActive = true → Answers .evPstart s ⟨.ok, .empty⟩ { s with pstartTmr := false }) ∧
      (s.proxyActive = false → Answers .evPstart s ⟨.ok, .empty⟩
        { s with pstartTmr := false, pollDis := false, pollCnt := 0 }))

/-- RD_STATUS answers its word and changes nothing, faulted or not (R312); the fields of STATUS stand where R48 puts
them and its reserved bits read 0. NOP does nothing (R313). That RD_STATUS does not look at the data port while the
engine is faulted is the model's choice (log 6). -/
def Obligations.StatusWordsAndNop : Prop :=
  ∀ s : State,
    (∀ sel, s.faulted = true ∨ s.data = .empty →
      Answers (.rdStatus sel) s ⟨.ok, .word (s.selectedWord sel)⟩ s) ∧
    s.selectedWord .pollCount = s.pollCnt ∧ s.selectedWord .faultInfo = s.faultInfo ∧
    (s.rbQ.length < 2 ^ 16 → s.fbLen < 2 ^ 9 →
      (s.selectedWord .lengths).toNat = s.rbQ.length + 2 ^ 16 * s.fbLen) ∧
    (s.selectedWord .status).extractLsb' 0 2 = s.txnState.code ∧
    (s.selectedWord .status).getLsbD 2 = s.txnTmr ∧
    (s.selectedWord .status).getLsbD 3 = s.settleTmr ∧
    (s.selectedWord .status).getLsbD 4 = s.pstartTmr ∧
    (s.selectedWord .status).getLsbD 5 = s.pollDis ∧
    (s.selectedWord .status).getLsbD 6 = s.extraSup ∧
    (s.selectedWord .status).getLsbD 7 = s.proxyActive ∧
    (s.selectedWord .status).getLsbD 8 = s.extAttached ∧
    (s.selectedWord .status).getLsbD 9 = s.dirty ∧
    (s.selectedWord .status).getLsbD 10 = s.faulted ∧
    (s.selectedWord .status).extractLsb' 11 5 = 0 ∧
    (s.selectedWord .status).extractLsb' 16 8 = s.faultCode ∧
    (s.selectedWord .status).extractLsb' 24 3 = s.fbCat.code ∧
    (s.selectedWord .status).extractLsb' 27 5 = 0 ∧
    (Ready s .empty → Answers .nop s ⟨.ok, .empty⟩ s)

/-- THE TRANSITION TABLE (of R315, the changes): an instruction that changes the transaction state is in a row of the
table, with its condition, and leaves what the row says. EV_LOOP makes up to three such changes in one step (R300) and a received
frame runs RX_PRI (log 8), so they are not single rows. -/
def Obligations.TransactionStateChangesOnlyAsTheTable : Prop :=
  ∀ (i : Instr) (s t : State), exec i s = .next t → t.txnState ≠ s.txnState → i ≠ .evLoop →
    i.encoding ≠ .rxHeader →
    (s.txnState = .idle ∧ t.txnState = .internal ∧ t.txnTmr = true ∧
      (i = .txnStartInt ∨
        i = .flush ∧ s.dirty = true ∧ t.priTx = s.priTx ++ t.view .v2 ∨
        i = .evUpdate ∧ s.pollDis = false ∧ t.priTx = s.priTx ++ t.view .v2 ∨
        i = .evSettle ∧ s.settleTmr = true ∧ s.proxyActive = false ∧ t.priTx = s.priTx ++ t.view .v2)) ∨
    (s.txnState = .idle ∧ t.txnState = .external ∧ t.txnTmr = true ∧ t.proxyActive = true ∧ t.pollDis = true ∧
      (i = .txnStartExt ∨ i = .rxExt ∧ s.extAttached = true ∧ s.extRx ≠ [])) ∨
    (s.txnState ≠ .idle ∧ t.txnState = .idle ∧ t.txnTmr = false ∧
      (i = .rxPri ∧ (∃ c, t.resp = some ⟨.ok, .cls c⟩) ∨
        i = .txnStop ∨
        i = .evTimeout ∧ s.txnTmr = true ∧ t.events = s.events ++ [.log .warning .wTxnTimeout]))

/-- Proxy suppression holds until reset (R316): no instruction clears the proxy flag, EV_PSTART alone clears POLL_DIS
and only while not proxying; so once both are set they stay set over every step but a reset, EV_UPDATE sends no poll,
and FLUSH still sends on an idle bus. -/
def Obligations.ProxySuppressionHoldsUntilReset : Prop :=
  (∀ (i : Instr) (s t : State), exec i s = .next t →
    (s.proxyActive = true → t.proxyActive = true) ∧
    (s.pollDis = true → t.pollDis = false → i = .evPstart ∧ s.proxyActive = false)) ∧
  ∀ s : State, s.proxyActive = true → s.pollDis = true →
    (∀ t : State, (∀ c rest, s.inputs ≠ .reset c :: rest) → step s = .next t →
      t.proxyActive = true ∧ t.pollDis = true) ∧
    (Ready s .empty → Answers .evUpdate s ⟨.noEffect, .empty⟩ s) ∧
    (Ready s .empty → s.dirty = true → s.txnState = .idle →
      ∃ t : State, Answers .flush s ⟨.ok, .empty⟩ t ∧ t.priTx = s.priTx ++ t.view .v2)

/-- Timeout against response (R393), with the timer armed exactly when a transaction is open (R284): the response first
closes the transaction, and the timeout then does nothing and logs nothing; the timeout first logs itself, and the
response still answers as it would; both orders leave the same S. The log, the mirrored bytes and the response port
alone may differ. -/
def Obligations.TimeoutAndResponseCommute : Prop :=
  ∀ (s a b c d : State) (k : FrameClass), Ready s .empty → timerMatches s →
    exec .rxPri s = .next a → a.resp = some ⟨.ok, .cls k⟩ → exec .evTimeout a = .next b →
    exec .evTimeout s = .next c → exec .rxPri c = .next d →
    (a.txnState = .idle ∧ a.txnTmr = false ∧ b.resp = some ⟨.noEffect, .empty⟩ ∧ b.events = a.events) ∧
    (s.txnState ≠ .idle → c.txnState = .idle ∧ c.events = s.events ++ [.log .warning .wTxnTimeout]) ∧
    d.resp = a.resp ∧
    ({ b with events := [], extTx := [], resp := none } : State) =
      { d with events := [], extTx := [], resp := none }
end

