-- ==== Sys2Proof/Laws/Memory.lean ====
section
/-! SUPPORT. The laws of the byte arrays: what a read gives after a write, and that every operation keeps the
canonical form and the size. -/

namespace Sys2Proof

/-! ### Read after write -/

theorem Memory.read_insert (m : Memory) (a : Nat) (b : Byte) (c : Nat) :
    (Memory.insert m a b).read c = if c = a then b else m.read c := by
  induction m with
  | nil => simp only [Memory.insert, Memory.read, eq_comm]
  | cons e rest ih =>
    obtain ⟨k, x⟩ := e
    simp only [Memory.insert]
    split
    · simp only [Memory.read, eq_comm]
    · split
      · subst_vars
        simp only [Memory.read, eq_comm]
        split <;> simp_all
      · simp only [Memory.read, ih]
        split <;> split <;> simp_all

theorem Memory.read_filter (m : Memory) (a c : Nat) :
    Memory.read (m.filter (fun e => e.1 != a)) c = if c = a then Memory.unlisted else m.read c := by
  induction m with
  | nil => simp [Memory.read]
  | cons e rest ih =>
    obtain ⟨k, x⟩ := e
    by_cases h : k = a
    · subst h
      by_cases hc : c = k
      · simp [hc]
        simpa [hc] using ih
      · simp [ih, hc, Memory.read, Ne.symm hc]
    · by_cases hc : k = c
      · subst hc
        simp [Memory.read, h]
      · simp [Memory.read, h, hc, ih]

/-- Reading after one write: the byte written there, every other byte as before. -/
theorem Memory.read_write (m : Memory) (a : Nat) (b : Byte) (c : Nat) :
    (m.write a b).read c = if c = a then b else m.read c := by
  unfold Memory.write
  split
  · rename_i h
    rw [Memory.read_filter, h]
  · exact Memory.read_insert m a b c

/-- Reading after `writeAll`: the bytes written in their range, every other byte as before. -/
theorem Memory.read_writeAll (bs : List Byte) (m : Memory) (off c : Nat) :
    (m.writeAll off bs).read c =
      if off ≤ c ∧ c < off + bs.length then byteAt bs (c - off) else m.read c := by
  induction bs generalizing m off with
  | nil =>
    have h : ¬ (off ≤ c ∧ c < off + ([] : List Byte).length) := by simp
    simp only [Memory.writeAll, if_neg h]
  | cons b bs ih =>
    simp only [Memory.writeAll, ih, Memory.read_write]
    by_cases h1 : off + 1 ≤ c ∧ c < off + 1 + bs.length
    · have h2 : off ≤ c ∧ c < off + (b :: bs).length := by simp; omega
      rw [if_pos h1, if_pos h2]
      have h3 : c - off = c - (off + 1) + 1 := by omega
      simp [byteAt, h3]
    · rw [if_neg h1]
      by_cases h4 : c = off
      · subst h4
        simp [byteAt]
      · have h2 : ¬ (off ≤ c ∧ c < off + (b :: bs).length) := by simp; omega
        rw [if_neg h2, if_neg h4]

@[simp] theorem Memory.length_slice (m : Memory) (off n : Nat) : (m.slice off n).length = n := by
  simp [Memory.slice]

/-- One byte of a slice. -/
theorem Memory.byteAt_slice (m : Memory) (off n i : Nat) (h : i < n) :
    byteAt (m.slice off n) i = m.read (off + i) := by
  simp [byteAt, Memory.slice, h]

/-- A slice read where `writeAll` wrote gives the bytes written. -/
theorem Memory.slice_writeAll (m : Memory) (off : Nat) (bs : List Byte) :
    (m.writeAll off bs).slice off bs.length = bs := by
  apply List.ext_getElem
  · simp
  · intro i h1 h2
    simp only [Memory.slice, List.getElem_map, List.getElem_range, Memory.read_writeAll]
    rw [if_pos ⟨by omega, by omega⟩]
    simp [byteAt, List.getD, h2]

/-! ### The canonical form -/

theorem Memory.wfAbove_weaken {lo : Option Nat} {m : Memory} (h : Memory.wfAbove lo m = true) :
    Memory.wfAbove none m = true := by
  cases m with
  | nil => rfl
  | cons e rest => simp_all [Memory.wfAbove, Memory.isAbove]

theorem Memory.wfAbove_lower {l k : Nat} {m : Memory} (hlk : l < k) (h : Memory.wfAbove (some k) m = true) :
    Memory.wfAbove (some l) m = true := by
  cases m with
  | nil => rfl
  | cons e rest =>
    simp [Memory.wfAbove, Memory.isAbove] at *
    exact ⟨⟨by omega, h.1.2⟩, h.2⟩

theorem Memory.wfAbove_insert {lo : Option Nat} {m : Memory} {a : Nat} {b : Byte} (hb : b ≠ Memory.unlisted)
    (hlo : ∀ l, lo = some l → l < a) (h : Memory.wfAbove lo m = true) :
    Memory.wfAbove lo (Memory.insert m a b) = true := by
  induction m generalizing lo with
  | nil =>
    cases lo with
    | none => simp [Memory.insert, Memory.wfAbove, Memory.isAbove, hb]
    | some l => simp [Memory.insert, Memory.wfAbove, Memory.isAbove, hb, hlo l rfl]
  | cons e rest ih =>
    obtain ⟨k, x⟩ := e
    have hhead : Memory.isAbove lo a = true := by
      cases lo with
      | none => rfl
      | some l => simp [Memory.isAbove, hlo l rfl]
    simp only [Memory.wfAbove, Bool.and_eq_true] at h
    simp only [Memory.insert]
    split
    · rename_i hak
      simp only [Memory.wfAbove, Bool.and_eq_true]
      exact ⟨⟨hhead, by simp [hb]⟩, ⟨by simp [Memory.isAbove, hak], h.1.2⟩, h.2⟩
    · split
      · rename_i hak
        subst hak
        simp only [Memory.wfAbove, Bool.and_eq_true]
        exact ⟨⟨hhead, by simp [hb]⟩, h.2⟩
      · rename_i h1 h2
        simp only [Memory.wfAbove, Bool.and_eq_true]
        exact ⟨h.1, ih (by intro l hl; cases hl; omega) h.2⟩

theorem Memory.wfAbove_filter {lo : Option Nat} {m : Memory} (p : Nat × Byte → Bool)
    (h : Memory.wfAbove lo m = true) : Memory.wfAbove lo (m.filter p) = true := by
  induction m generalizing lo with
  | nil => rfl
  | cons e rest ih =>
    obtain ⟨k, x⟩ := e
    simp only [Memory.wfAbove, Bool.and_eq_true] at h
    by_cases hp : p (k, x) = true
    · simp only [List.filter_cons_of_pos hp, Memory.wfAbove, Bool.and_eq_true]
      exact ⟨h.1, ih h.2⟩
    · rw [List.filter_cons_of_neg hp]
      apply ih
      cases lo with
      | none => exact Memory.wfAbove_weaken h.2
      | some l => exact Memory.wfAbove_lower (by simpa [Memory.isAbove] using h.1.1) h.2

/-- A write keeps the canonical form. -/
theorem Memory.wf_write {m : Memory} (a : Nat) (b : Byte) (h : m.wf = true) : (m.write a b).wf = true := by
  unfold Memory.write
  split
  · exact Memory.wfAbove_filter _ h
  · rename_i hb
    exact Memory.wfAbove_insert hb (by intro l hl; cases hl) h

/-- `writeAll` keeps the canonical form. -/
theorem Memory.wf_writeAll (bs : List Byte) {m : Memory} (off : Nat) (h : m.wf = true) :
    (m.writeAll off bs).wf = true := by
  induction bs generalizing m off with
  | nil => exact h
  | cons b bs ih => exact ih (off + 1) (Memory.wf_write off b h)

/-- The empty array, `zeros(n)`, is in the canonical form. -/
@[simp] theorem Memory.wf_nil : Memory.wf [] = true := rfl

/-! ### The size -/

theorem Memory.fits_insert {n : Nat} {m : Memory} {a : Nat} (b : Byte) (ha : a < n) (h : m.fits n = true) :
    (Memory.insert m a b).fits n = true := by
  induction m with
  | nil => simp [Memory.insert, Memory.fits, ha]
  | cons e rest ih =>
    obtain ⟨k, x⟩ := e
    simp only [Memory.fits, List.all_cons, Bool.and_eq_true, decide_eq_true_eq] at h ih
    simp only [Memory.insert]
    split
    · simp only [Memory.fits, List.all_cons, Bool.and_eq_true, decide_eq_true_eq]
      exact ⟨ha, h⟩
    · split
      · simp only [Memory.fits, List.all_cons, Bool.and_eq_true, decide_eq_true_eq]
        exact ⟨ha, h.2⟩
      · simp only [Memory.fits, List.all_cons, Bool.and_eq_true, decide_eq_true_eq]
        exact ⟨h.1, ih h.2⟩

/-- A write within the size keeps the array within it. -/
theorem Memory.fits_write {n : Nat} {m : Memory} {a : Nat} (b : Byte) (ha : a < n) (h : m.fits n = true) :
    (m.write a b).fits n = true := by
  unfold Memory.write
  split
  · simp only [Memory.fits, List.all_eq_true, decide_eq_true_eq, List.mem_filter] at *
    intro e he
    exact h e he.1
  · exact Memory.fits_insert b ha h

/-- `writeAll` within the size keeps the array within it. -/
theorem Memory.fits_writeAll {n : Nat} (bs : List Byte) {m : Memory} {off : Nat} (ho : off + bs.length ≤ n)
    (h : m.fits n = true) : (m.writeAll off bs).fits n = true := by
  induction bs generalizing m off with
  | nil => exact h
  | cons b bs ih =>
    simp only [List.length_cons] at ho
    exact ih (by omega) (Memory.fits_write b (by omega) h)

@[simp] theorem Memory.fits_nil (n : Nat) : Memory.fits n [] = true := rfl

/-- An offset beyond the size reads as an unlisted one. -/
theorem Memory.read_of_fits {n : Nat} {m : Memory} (h : m.fits n = true) {a : Nat} (ha : n ≤ a) :
    m.read a = Memory.unlisted := by
  induction m with
  | nil => rfl
  | cons e rest ih =>
    obtain ⟨k, x⟩ := e
    simp only [Memory.fits, List.all_cons, Bool.and_eq_true, decide_eq_true_eq] at h ih
    simp only [Memory.read]
    rw [if_neg (by omega)]
    exact ih h.2

end Sys2Proof
end

