-- ==== Sys2Proof/Laws/Bits.lean ====
section
/-! SUPPORT. The laws of the pure byte functions: fields of a byte (42_bitfield.md R160), little-endian assembly
(00_scope.md R13), the checksum (44_frame.md R240) and replacing bytes of a sequence (R15). -/

namespace Sys2Proof

/-! ### Fields of a byte -/

theorem wellShaped_iff (bit width : Nat) :
    wellShaped bit width = true ↔ 1 ≤ bit ∧ bit ≤ 8 ∧ 1 ≤ width ∧ bit + width ≤ 9 := by
  simp only [wellShaped, Bool.and_eq_true, decide_eq_true_eq]
  omega

theorem mask_getLsbD (w j : Nat) : (mask w).getLsbD j = (decide (j < 8) && decide (j < w)) := by
  simp [mask, BitVec.getLsbD_ofNat, Nat.testBit_two_pow_sub_one]

/-- A field read out has the field's bits at its low end (R160). -/
theorem readField_getLsbD (b : Byte) (bit width j : Nat) :
    (readField b bit width).getLsbD j =
      (decide (j < 8) && decide (j < width) && b.getLsbD (fieldShift bit width + j)) := by
  simp only [readField, BitVec.getLsbD_and, BitVec.getLsbD_ushiftRight, mask_getLsbD]
  rw [Bool.and_comm]

/-- The field as a number (R160). -/
theorem readField_toNat (b : Byte) (bit width : Nat) (h : width ≤ 8) :
    (readField b bit width).toNat = b.toNat / 2 ^ fieldShift bit width % 2 ^ width := by
  have hm : (mask width).toNat = 2 ^ width - 1 := by
    have : 2 ^ width ≤ 2 ^ 8 := Nat.pow_le_pow_right (by omega) h
    have := Nat.two_pow_pos width
    simp only [mask, BitVec.toNat_ofNat]
    omega
  simp only [readField, BitVec.toNat_and, BitVec.toNat_ushiftRight, hm, Nat.shiftRight_eq_div_pow,
    Nat.and_two_pow_sub_one_eq_mod]

/-- Writing a field puts the value's bits in it and keeps every other bit (R160). -/
theorem writeField_getLsbD (b v : Byte) (bit width j : Nat) (hv : v.toNat < 2 ^ width) (hj : j < 8) :
    (writeField b bit width v).getLsbD j =
      if fieldShift bit width ≤ j ∧ j < fieldShift bit width + width then v.getLsbD (j - fieldShift bit width)
      else b.getLsbD j := by
  have hz : ∀ i, width ≤ i → v.getLsbD i = false := fun i hi =>
    Nat.testBit_lt_two_pow (lt_of_lt_of_le hv (Nat.pow_le_pow_right (by omega) hi))
  simp only [writeField, BitVec.getLsbD_or, BitVec.getLsbD_and, BitVec.getLsbD_not, BitVec.getLsbD_shiftLeft,
    mask_getLsbD]
  by_cases h1 : fieldShift bit width ≤ j
  · have h0 : ¬ j < fieldShift bit width := by omega
    have h3 : j - fieldShift bit width < 8 := by omega
    by_cases h2 : j - fieldShift bit width < width
    · have h4 : j < fieldShift bit width + width := by omega
      simp [h0, h1, h2, h3, h4, hj]
    · have h4 : ¬ j < fieldShift bit width + width := by omega
      simp [h0, h1, h2, h4, hj, hz _ (Nat.le_of_not_lt h2)]
  · simp [h1, hj, show j < fieldShift bit width by omega]

/-! ### Little-endian numbers -/

@[simp] theorem leBytes_length (v n : Nat) : (leBytes v n).length = n := by
  induction n generalizing v with
  | zero => rfl
  | succ n ih => simp [leBytes, ih]

theorem leBytes_eq_map (v n : Nat) : leBytes v n = (List.range n).map (fun i => BitVec.ofNat 8 (v / 256 ^ i)) := by
  induction n generalizing v with
  | zero => rfl
  | succ n ih =>
    rw [leBytes, ih, List.range_succ_eq_map]
    simp only [List.map_cons, List.map_map, pow_zero, Nat.div_one, List.cons.injEq, true_and]
    refine List.map_congr_left fun i _ => ?_
    simp [Nat.pow_succ, Nat.div_div_eq_div_mul, Nat.mul_comm]

theorem le_lt (B : List Byte) : le B < 256 ^ B.length := by
  induction B with
  | nil => simp [le]
  | cons b bs ih =>
    have hb : b.toNat < 256 := b.isLt
    simp only [le, List.length_cons, Nat.pow_succ]
    nlinarith

/-- The two directions of R13 are inverse. -/
theorem le_leBytes (v n : Nat) (h : v < 256 ^ n) : le (leBytes v n) = v := by
  induction n generalizing v with
  | zero => simp only [pow_zero] at h; simp only [leBytes, le]; omega
  | succ n ih =>
    have := ih (v / 256) (Nat.div_lt_of_lt_mul (by rw [Nat.pow_succ] at h; omega))
    simp only [leBytes, le, BitVec.toNat_ofNat, this]
    omega

theorem le_eq_sum (B : List Byte) :
    le B = ((List.range B.length).map (fun i => (byteAt B i).toNat * 256 ^ i)).sum := by
  induction B with
  | nil => rfl
  | cons b bs ih =>
    rw [le, ih, List.length_cons, List.range_succ_eq_map, List.map_cons, List.sum_cons, List.map_map,
      ← List.sum_map_mul_left]
    simp only [byteAt, List.getD_cons_zero, pow_zero, Nat.mul_one, Nat.add_left_cancel_iff]
    congr 1
    refine List.map_congr_left fun i _ => ?_
    simp only [Function.comp, List.getD_cons_succ, Nat.pow_succ]
    ring

/-! ### Sequences -/

@[simp] theorem replaceAt_length (B : List Byte) (off : Nat) (new : List Byte) :
    (replaceAt B off new).length = B.length := by
  induction new generalizing B off with
  | nil => rfl
  | cons b bs ih => simp [replaceAt, ih]

/-- Replacing bytes puts them in and keeps every other byte (R15). -/
theorem byteAt_replaceAt (B : List Byte) (off : Nat) (new : List Byte) (h : off + new.length ≤ B.length) (i : Nat) :
    byteAt (replaceAt B off new) i =
      if off ≤ i ∧ i < off + new.length then byteAt new (i - off) else byteAt B i := by
  induction new generalizing B off with
  | nil => simp [replaceAt, show ¬ (off ≤ i ∧ i < off) by omega]
  | cons b bs ih =>
    simp only [List.length_cons] at h
    rw [replaceAt, ih _ _ (by simp; omega)]
    by_cases hi : i = off
    · subst hi
      simp [byteAt, List.getD_eq_getElem?_getD, show i < B.length by omega]
    · have hs : byteAt (B.set off b) i = byteAt B i := by
        simp [byteAt, List.getD_eq_getElem?_getD, List.getElem?_set_ne (Ne.symm hi)]
      rw [hs]
      by_cases hin : off + 1 ≤ i ∧ i < off + 1 + bs.length
      · have : i - off = i - (off + 1) + 1 := by omega
        rw [if_pos hin, if_pos ⟨by omega, by simp; omega⟩, this]
        simp [byteAt]
      · rw [if_neg hin, if_neg (by simp only [List.length_cons]; omega)]

@[simp] theorem subseq_length (B : List Byte) (off n : Nat) (h : off + n ≤ B.length) :
    (subseq B off n).length = n := by
  simp [subseq]; omega

theorem byteAt_subseq (B : List Byte) (off n i : Nat) (h : i < n) : byteAt (subseq B off n) i = byteAt B (off + i) := by
  simp [byteAt, subseq, List.getD_eq_getElem?_getD, List.getElem?_take_of_lt h]

@[simp] theorem writeBits_length (B : List Byte) (byte bit width : Nat) (v : Byte) :
    (writeBits B byte bit width v).length = B.length := by simp [writeBits]

/-! ### The checksum -/

theorem sum8_append (A B : List Byte) : sum8 (A ++ B) = sum8 A + sum8 B := by
  induction A with
  | nil => simp [sum8]
  | cons a as ih => simp [sum8, ih, BitVec.add_assoc]

/-! ### Keyed fields (43_codec.md R210) -/

theorem keyMasks_length (bit width : Nat) (h : 1 ≤ width) :
    (keyMasks bit width).length = keyLength bit width := by
  have : 1 ≤ keyLength bit width := by unfold keyLength; omega
  unfold keyMasks
  split <;> simp <;> omega

theorem mergeKey_length (n i : Nat) (os ks ms : List Byte) : (mergeKey n i os ks ms).length = os.length := by
  induction os generalizing i ks ms with
  | nil => cases ks <;> cases ms <;> rfl
  | cons o os ih => cases ks <;> cases ms <;> simp [mergeKey, ih]

end Sys2Proof
end

