-- ==== Sys2Proof/Laws/Encoding.lean ====
section
/-! SUPPORT. The bits of an encoded word, format by format (30_encoding.md R102, R127). -/

namespace Sys2Proof

theorem encodeN_bit (opc : BitVec 8) (i : Nat) :
    (encodeN opc).getLsbD i = if i < 24 then false else opc.getLsbD (i - 24) := by
  show BitVec.getLsbD (w := 8 + 24) (opc ++ (0 : BitVec 24)) i = _
  simp only [BitVec.getLsbD_append]
  grind

theorem encodeR_bit (opc : BitVec 8) (cnt : BitVec 9) (mrk : BitVec 8) (i : Nat) :
    (encodeR opc cnt mrk).getLsbD i =
      if i < 7 then false else if i < 15 then mrk.getLsbD (i - 7) else if i < 24 then cnt.getLsbD (i - 15)
      else opc.getLsbD (i - 24) := by
  show BitVec.getLsbD (w := 8 + 9 + 8 + 7) (opc ++ cnt ++ mrk ++ (0 : BitVec 7)) i = _
  simp only [BitVec.getLsbD_append]
  grind

theorem encodeB_bit (opc : BitVec 8) (v : View) (off : BitVec 9) (bit : BitVec 4) (w : BitVec 6) (i : Nat) :
    (encodeB opc v off bit w).getLsbD i =
      if i < 3 then false else if i < 9 then w.getLsbD (i - 3) else if i < 13 then bit.getLsbD (i - 9)
      else if i < 22 then off.getLsbD (i - 13) else if i < 24 then (viewBits v).getLsbD (i - 22)
      else opc.getLsbD (i - 24) := by
  show BitVec.getLsbD (w := 8 + 2 + 9 + 4 + 6 + 3)
    (opc ++ viewBits v ++ off ++ bit ++ w ++ (0 : BitVec 3)) i = _
  simp only [BitVec.getLsbD_append]
  grind

theorem encodeS_bit (opc : BitVec 8) (v : View) (slot : BitVec 8) (i : Nat) :
    (encodeS opc v slot).getLsbD i =
      if i < 14 then false else if i < 22 then slot.getLsbD (i - 14)
      else if i < 24 then (viewBits v).getLsbD (i - 22) else opc.getLsbD (i - 24) := by
  show BitVec.getLsbD (w := 8 + 2 + 8 + 14) (opc ++ viewBits v ++ slot ++ (0 : BitVec 14)) i = _
  simp only [BitVec.getLsbD_append]
  grind

theorem encodeVT_bit (opc : BitVec 8) (b : BitVec 2) (i : Nat) :
    (encodeVT opc b).getLsbD i =
      if i < 22 then false else if i < 24 then b.getLsbD (i - 22) else opc.getLsbD (i - 24) := by
  show BitVec.getLsbD (w := 8 + 2 + 22) (opc ++ b ++ (0 : BitVec 22)) i = _
  simp only [BitVec.getLsbD_append]
  grind

theorem encodeHeader_bit (b0 b1 b2 b3 : Byte) (i : Nat) :
    (encodeHeader b0 b1 b2 b3).getLsbD i =
      if i < 8 then b3.getLsbD i else if i < 16 then b2.getLsbD (i - 8)
      else if i < 24 then b1.getLsbD (i - 16) else b0.getLsbD (i - 24) := by
  show BitVec.getLsbD (w := 8 + 8 + 8 + 8) (b0 ++ b1 ++ b2 ++ b3) i = _
  simp only [BitVec.getLsbD_append]
  grind

end Sys2Proof
end

