-- ==== Sys2Proof/Laws/State.lean ====
section
/-! SUPPORT. What each named update of the state does to each field, and to the views: all true by definition. -/

namespace Sys2Proof.Machine

/-! ### `State.respond` -/

@[simp] theorem State.respond_cfg (s : State) (r : Response) : (s.respond r).cfg = s.cfg := rfl
@[simp] theorem State.respond_rbQ (s : State) (r : Response) : (s.respond r).rbQ = s.rbQ := rfl
@[simp] theorem State.respond_fb (s : State) (r : Response) : (s.respond r).fb = s.fb := rfl
@[simp] theorem State.respond_fbLen (s : State) (r : Response) : (s.respond r).fbLen = s.fbLen := rfl
@[simp] theorem State.respond_fbCat (s : State) (r : Response) : (s.respond r).fbCat = s.fbCat := rfl
@[simp] theorem State.respond_txb (s : State) (r : Response) : (s.respond r).txb = s.txb := rfl
@[simp] theorem State.respond_txbLen (s : State) (r : Response) : (s.respond r).txbLen = s.txbLen := rfl
@[simp] theorem State.respond_pcb (s : State) (r : Response) : (s.respond r).pcb = s.pcb := rfl
@[simp] theorem State.respond_dirty (s : State) (r : Response) : (s.respond r).dirty = s.dirty := rfl
@[simp] theorem State.respond_txnState (s : State) (r : Response) : (s.respond r).txnState = s.txnState := rfl
@[simp] theorem State.respond_txnTmr (s : State) (r : Response) : (s.respond r).txnTmr = s.txnTmr := rfl
@[simp] theorem State.respond_settleTmr (s : State) (r : Response) : (s.respond r).settleTmr = s.settleTmr := rfl
@[simp] theorem State.respond_pstartTmr (s : State) (r : Response) : (s.respond r).pstartTmr = s.pstartTmr := rfl
@[simp] theorem State.respond_pollDis (s : State) (r : Response) : (s.respond r).pollDis = s.pollDis := rfl
@[simp] theorem State.respond_pollCnt (s : State) (r : Response) : (s.respond r).pollCnt = s.pollCnt := rfl
@[simp] theorem State.respond_extraSup (s : State) (r : Response) : (s.respond r).extraSup = s.extraSup := rfl
@[simp] theorem State.respond_proxyActive (s : State) (r : Response) : (s.respond r).proxyActive = s.proxyActive := rfl
@[simp] theorem State.respond_extAttached (s : State) (r : Response) : (s.respond r).extAttached = s.extAttached := rfl
@[simp] theorem State.respond_dedup (s : State) (r : Response) : (s.respond r).dedup = s.dedup := rfl
@[simp] theorem State.respond_faulted (s : State) (r : Response) : (s.respond r).faulted = s.faulted := rfl
@[simp] theorem State.respond_faultCode (s : State) (r : Response) : (s.respond r).faultCode = s.faultCode := rfl
@[simp] theorem State.respond_faultInfo (s : State) (r : Response) : (s.respond r).faultInfo = s.faultInfo := rfl
@[simp] theorem State.respond_priRx (s : State) (r : Response) : (s.respond r).priRx = s.priRx := rfl
@[simp] theorem State.respond_extRx (s : State) (r : Response) : (s.respond r).extRx = s.extRx := rfl
@[simp] theorem State.respond_priTx (s : State) (r : Response) : (s.respond r).priTx = s.priTx := rfl
@[simp] theorem State.respond_extTx (s : State) (r : Response) : (s.respond r).extTx = s.extTx := rfl
@[simp] theorem State.respond_events (s : State) (r : Response) : (s.respond r).events = s.events := rfl
@[simp] theorem State.respond_data (s : State) (r : Response) : (s.respond r).data = s.data := rfl
@[simp] theorem State.respond_resp (s : State) (r : Response) : (s.respond r).resp = some r := rfl
@[simp] theorem State.respond_inputs (s : State) (r : Response) : (s.respond r).inputs = s.inputs := rfl
@[simp] theorem State.respond_dispatchCount (s : State) (r : Response) : (s.respond r).dispatchCount = s.dispatchCount := rfl
@[simp] theorem State.respond_view (s : State) (r : Response) (v : View) : (s.respond r).view v = s.view v := by
  cases v <;> rfl

/-! ### `State.emit` -/

@[simp] theorem State.emit_cfg (s : State) (es : List Event) : (s.emit es).cfg = s.cfg := rfl
@[simp] theorem State.emit_rbQ (s : State) (es : List Event) : (s.emit es).rbQ = s.rbQ := rfl
@[simp] theorem State.emit_fb (s : State) (es : List Event) : (s.emit es).fb = s.fb := rfl
@[simp] theorem State.emit_fbLen (s : State) (es : List Event) : (s.emit es).fbLen = s.fbLen := rfl
@[simp] theorem State.emit_fbCat (s : State) (es : List Event) : (s.emit es).fbCat = s.fbCat := rfl
@[simp] theorem State.emit_txb (s : State) (es : List Event) : (s.emit es).txb = s.txb := rfl
@[simp] theorem State.emit_txbLen (s : State) (es : List Event) : (s.emit es).txbLen = s.txbLen := rfl
@[simp] theorem State.emit_pcb (s : State) (es : List Event) : (s.emit es).pcb = s.pcb := rfl
@[simp] theorem State.emit_dirty (s : State) (es : List Event) : (s.emit es).dirty = s.dirty := rfl
@[simp] theorem State.emit_txnState (s : State) (es : List Event) : (s.emit es).txnState = s.txnState := rfl
@[simp] theorem State.emit_txnTmr (s : State) (es : List Event) : (s.emit es).txnTmr = s.txnTmr := rfl
@[simp] theorem State.emit_settleTmr (s : State) (es : List Event) : (s.emit es).settleTmr = s.settleTmr := rfl
@[simp] theorem State.emit_pstartTmr (s : State) (es : List Event) : (s.emit es).pstartTmr = s.pstartTmr := rfl
@[simp] theorem State.emit_pollDis (s : State) (es : List Event) : (s.emit es).pollDis = s.pollDis := rfl
@[simp] theorem State.emit_pollCnt (s : State) (es : List Event) : (s.emit es).pollCnt = s.pollCnt := rfl
@[simp] theorem State.emit_extraSup (s : State) (es : List Event) : (s.emit es).extraSup = s.extraSup := rfl
@[simp] theorem State.emit_proxyActive (s : State) (es : List Event) : (s.emit es).proxyActive = s.proxyActive := rfl
@[simp] theorem State.emit_extAttached (s : State) (es : List Event) : (s.emit es).extAttached = s.extAttached := rfl
@[simp] theorem State.emit_dedup (s : State) (es : List Event) : (s.emit es).dedup = s.dedup := rfl
@[simp] theorem State.emit_faulted (s : State) (es : List Event) : (s.emit es).faulted = s.faulted := rfl
@[simp] theorem State.emit_faultCode (s : State) (es : List Event) : (s.emit es).faultCode = s.faultCode := rfl
@[simp] theorem State.emit_faultInfo (s : State) (es : List Event) : (s.emit es).faultInfo = s.faultInfo := rfl
@[simp] theorem State.emit_priRx (s : State) (es : List Event) : (s.emit es).priRx = s.priRx := rfl
@[simp] theorem State.emit_extRx (s : State) (es : List Event) : (s.emit es).extRx = s.extRx := rfl
@[simp] theorem State.emit_priTx (s : State) (es : List Event) : (s.emit es).priTx = s.priTx := rfl
@[simp] theorem State.emit_extTx (s : State) (es : List Event) : (s.emit es).extTx = s.extTx := rfl
@[simp] theorem State.emit_events (s : State) (es : List Event) : (s.emit es).events = s.events ++ es := rfl
@[simp] theorem State.emit_data (s : State) (es : List Event) : (s.emit es).data = s.data := rfl
@[simp] theorem State.emit_resp (s : State) (es : List Event) : (s.emit es).resp = s.resp := rfl
@[simp] theorem State.emit_inputs (s : State) (es : List Event) : (s.emit es).inputs = s.inputs := rfl
@[simp] theorem State.emit_dispatchCount (s : State) (es : List Event) : (s.emit es).dispatchCount = s.dispatchCount := rfl
@[simp] theorem State.emit_view (s : State) (es : List Event) (v : View) : (s.emit es).view v = s.view v := by
  cases v <;> rfl

/-! ### `State.enterFault` -/

@[simp] theorem State.enterFault_cfg (s : State) (c : FaultCode) (info : Nat) : (s.enterFault c info).cfg = s.cfg := rfl
@[simp] theorem State.enterFault_rbQ (s : State) (c : FaultCode) (info : Nat) : (s.enterFault c info).rbQ = s.rbQ := rfl
@[simp] theorem State.enterFault_fb (s : State) (c : FaultCode) (info : Nat) : (s.enterFault c info).fb = s.fb := rfl
@[simp] theorem State.enterFault_fbLen (s : State) (c : FaultCode) (info : Nat) : (s.enterFault c info).fbLen = s.fbLen := rfl
@[simp] theorem State.enterFault_fbCat (s : State) (c : FaultCode) (info : Nat) : (s.enterFault c info).fbCat = s.fbCat := rfl
@[simp] theorem State.enterFault_txb (s : State) (c : FaultCode) (info : Nat) : (s.enterFault c info).txb = s.txb := rfl
@[simp] theorem State.enterFault_txbLen (s : State) (c : FaultCode) (info : Nat) : (s.enterFault c info).txbLen = s.txbLen := rfl
@[simp] theorem State.enterFault_pcb (s : State) (c : FaultCode) (info : Nat) : (s.enterFault c info).pcb = s.pcb := rfl
@[simp] theorem State.enterFault_dirty (s : State) (c : FaultCode) (info : Nat) : (s.enterFault c info).dirty = s.dirty := rfl
@[simp] theorem State.enterFault_txnState (s : State) (c : FaultCode) (info : Nat) : (s.enterFault c info).txnState = s.txnState := rfl
@[simp] theorem State.enterFault_txnTmr (s : State) (c : FaultCode) (info : Nat) : (s.enterFault c info).txnTmr = s.txnTmr := rfl
@[simp] theorem State.enterFault_settleTmr (s : State) (c : FaultCode) (info : Nat) : (s.enterFault c info).settleTmr = s.settleTmr := rfl
@[simp] theorem State.enterFault_pstartTmr (s : State) (c : FaultCode) (info : Nat) : (s.enterFault c info).pstartTmr = s.pstartTmr := rfl
@[simp] theorem State.enterFault_pollDis (s : State) (c : FaultCode) (info : Nat) : (s.enterFault c info).pollDis = s.pollDis := rfl
@[simp] theorem State.enterFault_pollCnt (s : State) (c : FaultCode) (info : Nat) : (s.enterFault c info).pollCnt = s.pollCnt := rfl
@[simp] theorem State.enterFault_extraSup (s : State) (c : FaultCode) (info : Nat) : (s.enterFault c info).extraSup = s.extraSup := rfl
@[simp] theorem State.enterFault_proxyActive (s : State) (c : FaultCode) (info : Nat) : (s.enterFault c info).proxyActive = s.proxyActive := rfl
@[simp] theorem State.enterFault_extAttached (s : State) (c : FaultCode) (info : Nat) : (s.enterFault c info).extAttached = s.extAttached := rfl
@[simp] theorem State.enterFault_dedup (s : State) (c : FaultCode) (info : Nat) : (s.enterFault c info).dedup = s.dedup := rfl
@[simp] theorem State.enterFault_faulted (s : State) (c : FaultCode) (info : Nat) : (s.enterFault c info).faulted = true := rfl
@[simp] theorem State.enterFault_faultCode (s : State) (c : FaultCode) (info : Nat) : (s.enterFault c info).faultCode = c.code := rfl
@[simp] theorem State.enterFault_faultInfo (s : State) (c : FaultCode) (info : Nat) : (s.enterFault c info).faultInfo = BitVec.ofNat 32 info := rfl
@[simp] theorem State.enterFault_priRx (s : State) (c : FaultCode) (info : Nat) : (s.enterFault c info).priRx = s.priRx := rfl
@[simp] theorem State.enterFault_extRx (s : State) (c : FaultCode) (info : Nat) : (s.enterFault c info).extRx = s.extRx := rfl
@[simp] theorem State.enterFault_priTx (s : State) (c : FaultCode) (info : Nat) : (s.enterFault c info).priTx = s.priTx := rfl
@[simp] theorem State.enterFault_extTx (s : State) (c : FaultCode) (info : Nat) : (s.enterFault c info).extTx = s.extTx := rfl
@[simp] theorem State.enterFault_events (s : State) (c : FaultCode) (info : Nat) : (s.enterFault c info).events = s.events ++ [.log .error .fFault] := rfl
@[simp] theorem State.enterFault_data (s : State) (c : FaultCode) (info : Nat) : (s.enterFault c info).data = s.data := rfl
@[simp] theorem State.enterFault_resp (s : State) (c : FaultCode) (info : Nat) : (s.enterFault c info).resp = some ⟨.fault, .byte c.code⟩ := rfl
@[simp] theorem State.enterFault_inputs (s : State) (c : FaultCode) (info : Nat) : (s.enterFault c info).inputs = s.inputs := rfl
@[simp] theorem State.enterFault_dispatchCount (s : State) (c : FaultCode) (info : Nat) : (s.enterFault c info).dispatchCount = s.dispatchCount := rfl
@[simp] theorem State.enterFault_view (s : State) (c : FaultCode) (info : Nat) (v : View) : (s.enterFault c info).view v = s.view v := by
  cases v <;> rfl

/-! ### `State.respondFaulted` -/

@[simp] theorem State.respondFaulted_cfg (s : State) : (s.respondFaulted).cfg = s.cfg := rfl
@[simp] theorem State.respondFaulted_rbQ (s : State) : (s.respondFaulted).rbQ = s.rbQ := rfl
@[simp] theorem State.respondFaulted_fb (s : State) : (s.respondFaulted).fb = s.fb := rfl
@[simp] theorem State.respondFaulted_fbLen (s : State) : (s.respondFaulted).fbLen = s.fbLen := rfl
@[simp] theorem State.respondFaulted_fbCat (s : State) : (s.respondFaulted).fbCat = s.fbCat := rfl
@[simp] theorem State.respondFaulted_txb (s : State) : (s.respondFaulted).txb = s.txb := rfl
@[simp] theorem State.respondFaulted_txbLen (s : State) : (s.respondFaulted).txbLen = s.txbLen := rfl
@[simp] theorem State.respondFaulted_pcb (s : State) : (s.respondFaulted).pcb = s.pcb := rfl
@[simp] theorem State.respondFaulted_dirty (s : State) : (s.respondFaulted).dirty = s.dirty := rfl
@[simp] theorem State.respondFaulted_txnState (s : State) : (s.respondFaulted).txnState = s.txnState := rfl
@[simp] theorem State.respondFaulted_txnTmr (s : State) : (s.respondFaulted).txnTmr = s.txnTmr := rfl
@[simp] theorem State.respondFaulted_settleTmr (s : State) : (s.respondFaulted).settleTmr = s.settleTmr := rfl
@[simp] theorem State.respondFaulted_pstartTmr (s : State) : (s.respondFaulted).pstartTmr = s.pstartTmr := rfl
@[simp] theorem State.respondFaulted_pollDis (s : State) : (s.respondFaulted).pollDis = s.pollDis := rfl
@[simp] theorem State.respondFaulted_pollCnt (s : State) : (s.respondFaulted).pollCnt = s.pollCnt := rfl
@[simp] theorem State.respondFaulted_extraSup (s : State) : (s.respondFaulted).extraSup = s.extraSup := rfl
@[simp] theorem State.respondFaulted_proxyActive (s : State) : (s.respondFaulted).proxyActive = s.proxyActive := rfl
@[simp] theorem State.respondFaulted_extAttached (s : State) : (s.respondFaulted).extAttached = s.extAttached := rfl
@[simp] theorem State.respondFaulted_dedup (s : State) : (s.respondFaulted).dedup = s.dedup := rfl
@[simp] theorem State.respondFaulted_faulted (s : State) : (s.respondFaulted).faulted = s.faulted := rfl
@[simp] theorem State.respondFaulted_faultCode (s : State) : (s.respondFaulted).faultCode = s.faultCode := rfl
@[simp] theorem State.respondFaulted_faultInfo (s : State) : (s.respondFaulted).faultInfo = s.faultInfo := rfl
@[simp] theorem State.respondFaulted_priRx (s : State) : (s.respondFaulted).priRx = s.priRx := rfl
@[simp] theorem State.respondFaulted_extRx (s : State) : (s.respondFaulted).extRx = s.extRx := rfl
@[simp] theorem State.respondFaulted_priTx (s : State) : (s.respondFaulted).priTx = s.priTx := rfl
@[simp] theorem State.respondFaulted_extTx (s : State) : (s.respondFaulted).extTx = s.extTx := rfl
@[simp] theorem State.respondFaulted_events (s : State) : (s.respondFaulted).events = s.events := rfl
@[simp] theorem State.respondFaulted_data (s : State) : (s.respondFaulted).data = s.data := rfl
@[simp] theorem State.respondFaulted_resp (s : State) : (s.respondFaulted).resp = some ⟨.fault, .byte s.faultCode⟩ := rfl
@[simp] theorem State.respondFaulted_inputs (s : State) : (s.respondFaulted).inputs = s.inputs := rfl
@[simp] theorem State.respondFaulted_dispatchCount (s : State) : (s.respondFaulted).dispatchCount = s.dispatchCount := rfl
@[simp] theorem State.respondFaulted_view (s : State) (v : View) : (s.respondFaulted).view v = s.view v := by
  cases v <;> rfl

/-! ### `State.openTxn` -/

@[simp] theorem State.openTxn_cfg (s : State) (k : TxnState) : (s.openTxn k).cfg = s.cfg := rfl
@[simp] theorem State.openTxn_rbQ (s : State) (k : TxnState) : (s.openTxn k).rbQ = s.rbQ := rfl
@[simp] theorem State.openTxn_fb (s : State) (k : TxnState) : (s.openTxn k).fb = s.fb := rfl
@[simp] theorem State.openTxn_fbLen (s : State) (k : TxnState) : (s.openTxn k).fbLen = s.fbLen := rfl
@[simp] theorem State.openTxn_fbCat (s : State) (k : TxnState) : (s.openTxn k).fbCat = s.fbCat := rfl
@[simp] theorem State.openTxn_txb (s : State) (k : TxnState) : (s.openTxn k).txb = s.txb := rfl
@[simp] theorem State.openTxn_txbLen (s : State) (k : TxnState) : (s.openTxn k).txbLen = s.txbLen := rfl
@[simp] theorem State.openTxn_pcb (s : State) (k : TxnState) : (s.openTxn k).pcb = s.pcb := rfl
@[simp] theorem State.openTxn_dirty (s : State) (k : TxnState) : (s.openTxn k).dirty = s.dirty := rfl
@[simp] theorem State.openTxn_txnState (s : State) (k : TxnState) : (s.openTxn k).txnState = k := rfl
@[simp] theorem State.openTxn_txnTmr (s : State) (k : TxnState) : (s.openTxn k).txnTmr = true := rfl
@[simp] theorem State.openTxn_settleTmr (s : State) (k : TxnState) : (s.openTxn k).settleTmr = s.settleTmr := rfl
@[simp] theorem State.openTxn_pstartTmr (s : State) (k : TxnState) : (s.openTxn k).pstartTmr = s.pstartTmr := rfl
@[simp] theorem State.openTxn_pollDis (s : State) (k : TxnState) : (s.openTxn k).pollDis = s.pollDis := rfl
@[simp] theorem State.openTxn_pollCnt (s : State) (k : TxnState) : (s.openTxn k).pollCnt = s.pollCnt := rfl
@[simp] theorem State.openTxn_extraSup (s : State) (k : TxnState) : (s.openTxn k).extraSup = s.extraSup := rfl
@[simp] theorem State.openTxn_proxyActive (s : State) (k : TxnState) : (s.openTxn k).proxyActive = s.proxyActive := rfl
@[simp] theorem State.openTxn_extAttached (s : State) (k : TxnState) : (s.openTxn k).extAttached = s.extAttached := rfl
@[simp] theorem State.openTxn_dedup (s : State) (k : TxnState) : (s.openTxn k).dedup = s.dedup := rfl
@[simp] theorem State.openTxn_faulted (s : State) (k : TxnState) : (s.openTxn k).faulted = s.faulted := rfl
@[simp] theorem State.openTxn_faultCode (s : State) (k : TxnState) : (s.openTxn k).faultCode = s.faultCode := rfl
@[simp] theorem State.openTxn_faultInfo (s : State) (k : TxnState) : (s.openTxn k).faultInfo = s.faultInfo := rfl
@[simp] theorem State.openTxn_priRx (s : State) (k : TxnState) : (s.openTxn k).priRx = s.priRx := rfl
@[simp] theorem State.openTxn_extRx (s : State) (k : TxnState) : (s.openTxn k).extRx = s.extRx := rfl
@[simp] theorem State.openTxn_priTx (s : State) (k : TxnState) : (s.openTxn k).priTx = s.priTx := rfl
@[simp] theorem State.openTxn_extTx (s : State) (k : TxnState) : (s.openTxn k).extTx = s.extTx := rfl
@[simp] theorem State.openTxn_events (s : State) (k : TxnState) : (s.openTxn k).events = s.events := rfl
@[simp] theorem State.openTxn_data (s : State) (k : TxnState) : (s.openTxn k).data = s.data := rfl
@[simp] theorem State.openTxn_resp (s : State) (k : TxnState) : (s.openTxn k).resp = s.resp := rfl
@[simp] theorem State.openTxn_inputs (s : State) (k : TxnState) : (s.openTxn k).inputs = s.inputs := rfl
@[simp] theorem State.openTxn_dispatchCount (s : State) (k : TxnState) : (s.openTxn k).dispatchCount = s.dispatchCount := rfl
@[simp] theorem State.openTxn_view (s : State) (k : TxnState) (v : View) : (s.openTxn k).view v = s.view v := by
  cases v <;> rfl

/-! ### `State.refuseTxn` -/

@[simp] theorem State.refuseTxn_cfg (s : State) : (s.refuseTxn).cfg = s.cfg := rfl
@[simp] theorem State.refuseTxn_rbQ (s : State) : (s.refuseTxn).rbQ = s.rbQ := rfl
@[simp] theorem State.refuseTxn_fb (s : State) : (s.refuseTxn).fb = s.fb := rfl
@[simp] theorem State.refuseTxn_fbLen (s : State) : (s.refuseTxn).fbLen = s.fbLen := rfl
@[simp] theorem State.refuseTxn_fbCat (s : State) : (s.refuseTxn).fbCat = s.fbCat := rfl
@[simp] theorem State.refuseTxn_txb (s : State) : (s.refuseTxn).txb = s.txb := rfl
@[simp] theorem State.refuseTxn_txbLen (s : State) : (s.refuseTxn).txbLen = s.txbLen := rfl
@[simp] theorem State.refuseTxn_pcb (s : State) : (s.refuseTxn).pcb = s.pcb := rfl
@[simp] theorem State.refuseTxn_dirty (s : State) : (s.refuseTxn).dirty = s.dirty := rfl
@[simp] theorem State.refuseTxn_txnState (s : State) : (s.refuseTxn).txnState = s.txnState := rfl
@[simp] theorem State.refuseTxn_txnTmr (s : State) : (s.refuseTxn).txnTmr = s.txnTmr := rfl
@[simp] theorem State.refuseTxn_settleTmr (s : State) : (s.refuseTxn).settleTmr = s.settleTmr := rfl
@[simp] theorem State.refuseTxn_pstartTmr (s : State) : (s.refuseTxn).pstartTmr = s.pstartTmr := rfl
@[simp] theorem State.refuseTxn_pollDis (s : State) : (s.refuseTxn).pollDis = s.pollDis := rfl
@[simp] theorem State.refuseTxn_pollCnt (s : State) : (s.refuseTxn).pollCnt = s.pollCnt := rfl
@[simp] theorem State.refuseTxn_extraSup (s : State) : (s.refuseTxn).extraSup = s.extraSup := rfl
@[simp] theorem State.refuseTxn_proxyActive (s : State) : (s.refuseTxn).proxyActive = s.proxyActive := rfl
@[simp] theorem State.refuseTxn_extAttached (s : State) : (s.refuseTxn).extAttached = s.extAttached := rfl
@[simp] theorem State.refuseTxn_dedup (s : State) : (s.refuseTxn).dedup = s.dedup := rfl
@[simp] theorem State.refuseTxn_faulted (s : State) : (s.refuseTxn).faulted = s.faulted := rfl
@[simp] theorem State.refuseTxn_faultCode (s : State) : (s.refuseTxn).faultCode = s.faultCode := rfl
@[simp] theorem State.refuseTxn_faultInfo (s : State) : (s.refuseTxn).faultInfo = s.faultInfo := rfl
@[simp] theorem State.refuseTxn_priRx (s : State) : (s.refuseTxn).priRx = s.priRx := rfl
@[simp] theorem State.refuseTxn_extRx (s : State) : (s.refuseTxn).extRx = s.extRx := rfl
@[simp] theorem State.refuseTxn_priTx (s : State) : (s.refuseTxn).priTx = s.priTx := rfl
@[simp] theorem State.refuseTxn_extTx (s : State) : (s.refuseTxn).extTx = s.extTx := rfl
@[simp] theorem State.refuseTxn_events (s : State) : (s.refuseTxn).events = s.events ++ [.log .error .eTxnBusy] := rfl
@[simp] theorem State.refuseTxn_data (s : State) : (s.refuseTxn).data = s.data := rfl
@[simp] theorem State.refuseTxn_resp (s : State) : (s.refuseTxn).resp = s.resp := rfl
@[simp] theorem State.refuseTxn_inputs (s : State) : (s.refuseTxn).inputs = s.inputs := rfl
@[simp] theorem State.refuseTxn_dispatchCount (s : State) : (s.refuseTxn).dispatchCount = s.dispatchCount := rfl
@[simp] theorem State.refuseTxn_view (s : State) (v : View) : (s.refuseTxn).view v = s.view v := by
  cases v <;> rfl

/-! ### `State.closeTxn` -/

@[simp] theorem State.closeTxn_cfg (s : State) : (s.closeTxn).cfg = s.cfg := rfl
@[simp] theorem State.closeTxn_rbQ (s : State) : (s.closeTxn).rbQ = s.rbQ := rfl
@[simp] theorem State.closeTxn_fb (s : State) : (s.closeTxn).fb = s.fb := rfl
@[simp] theorem State.closeTxn_fbLen (s : State) : (s.closeTxn).fbLen = s.fbLen := rfl
@[simp] theorem State.closeTxn_fbCat (s : State) : (s.closeTxn).fbCat = s.fbCat := rfl
@[simp] theorem State.closeTxn_txb (s : State) : (s.closeTxn).txb = s.txb := rfl
@[simp] theorem State.closeTxn_txbLen (s : State) : (s.closeTxn).txbLen = s.txbLen := rfl
@[simp] theorem State.closeTxn_pcb (s : State) : (s.closeTxn).pcb = s.pcb := rfl
@[simp] theorem State.closeTxn_dirty (s : State) : (s.closeTxn).dirty = s.dirty := rfl
@[simp] theorem State.closeTxn_txnState (s : State) : (s.closeTxn).txnState = .idle := rfl
@[simp] theorem State.closeTxn_txnTmr (s : State) : (s.closeTxn).txnTmr = false := rfl
@[simp] theorem State.closeTxn_settleTmr (s : State) : (s.closeTxn).settleTmr = s.settleTmr := rfl
@[simp] theorem State.closeTxn_pstartTmr (s : State) : (s.closeTxn).pstartTmr = s.pstartTmr := rfl
@[simp] theorem State.closeTxn_pollDis (s : State) : (s.closeTxn).pollDis = s.pollDis := rfl
@[simp] theorem State.closeTxn_pollCnt (s : State) : (s.closeTxn).pollCnt = s.pollCnt := rfl
@[simp] theorem State.closeTxn_extraSup (s : State) : (s.closeTxn).extraSup = s.extraSup := rfl
@[simp] theorem State.closeTxn_proxyActive (s : State) : (s.closeTxn).proxyActive = s.proxyActive := rfl
@[simp] theorem State.closeTxn_extAttached (s : State) : (s.closeTxn).extAttached = s.extAttached := rfl
@[simp] theorem State.closeTxn_dedup (s : State) : (s.closeTxn).dedup = s.dedup := rfl
@[simp] theorem State.closeTxn_faulted (s : State) : (s.closeTxn).faulted = s.faulted := rfl
@[simp] theorem State.closeTxn_faultCode (s : State) : (s.closeTxn).faultCode = s.faultCode := rfl
@[simp] theorem State.closeTxn_faultInfo (s : State) : (s.closeTxn).faultInfo = s.faultInfo := rfl
@[simp] theorem State.closeTxn_priRx (s : State) : (s.closeTxn).priRx = s.priRx := rfl
@[simp] theorem State.closeTxn_extRx (s : State) : (s.closeTxn).extRx = s.extRx := rfl
@[simp] theorem State.closeTxn_priTx (s : State) : (s.closeTxn).priTx = s.priTx := rfl
@[simp] theorem State.closeTxn_extTx (s : State) : (s.closeTxn).extTx = s.extTx := rfl
@[simp] theorem State.closeTxn_events (s : State) : (s.closeTxn).events = s.events := rfl
@[simp] theorem State.closeTxn_data (s : State) : (s.closeTxn).data = s.data := rfl
@[simp] theorem State.closeTxn_resp (s : State) : (s.closeTxn).resp = s.resp := rfl
@[simp] theorem State.closeTxn_inputs (s : State) : (s.closeTxn).inputs = s.inputs := rfl
@[simp] theorem State.closeTxn_dispatchCount (s : State) : (s.closeTxn).dispatchCount = s.dispatchCount := rfl
@[simp] theorem State.closeTxn_view (s : State) (v : View) : (s.closeTxn).view v = s.view v := by
  cases v <;> rfl

/-! ### `State.freezePolls` -/

@[simp] theorem State.freezePolls_cfg (s : State) : (s.freezePolls).cfg = s.cfg := rfl
@[simp] theorem State.freezePolls_rbQ (s : State) : (s.freezePolls).rbQ = s.rbQ := rfl
@[simp] theorem State.freezePolls_fb (s : State) : (s.freezePolls).fb = s.fb := rfl
@[simp] theorem State.freezePolls_fbLen (s : State) : (s.freezePolls).fbLen = s.fbLen := rfl
@[simp] theorem State.freezePolls_fbCat (s : State) : (s.freezePolls).fbCat = s.fbCat := rfl
@[simp] theorem State.freezePolls_txb (s : State) : (s.freezePolls).txb = s.txb := rfl
@[simp] theorem State.freezePolls_txbLen (s : State) : (s.freezePolls).txbLen = s.txbLen := rfl
@[simp] theorem State.freezePolls_pcb (s : State) : (s.freezePolls).pcb = s.pcb := rfl
@[simp] theorem State.freezePolls_dirty (s : State) : (s.freezePolls).dirty = s.dirty := rfl
@[simp] theorem State.freezePolls_txnState (s : State) : (s.freezePolls).txnState = s.txnState := rfl
@[simp] theorem State.freezePolls_txnTmr (s : State) : (s.freezePolls).txnTmr = s.txnTmr := rfl
@[simp] theorem State.freezePolls_settleTmr (s : State) : (s.freezePolls).settleTmr = s.settleTmr := rfl
@[simp] theorem State.freezePolls_pstartTmr (s : State) : (s.freezePolls).pstartTmr = s.pstartTmr := rfl
@[simp] theorem State.freezePolls_pollDis (s : State) : (s.freezePolls).pollDis = true := rfl
@[simp] theorem State.freezePolls_pollCnt (s : State) : (s.freezePolls).pollCnt = s.pollCnt := rfl
@[simp] theorem State.freezePolls_extraSup (s : State) : (s.freezePolls).extraSup = s.extraSup := rfl
@[simp] theorem State.freezePolls_proxyActive (s : State) : (s.freezePolls).proxyActive = true := rfl
@[simp] theorem State.freezePolls_extAttached (s : State) : (s.freezePolls).extAttached = s.extAttached := rfl
@[simp] theorem State.freezePolls_dedup (s : State) : (s.freezePolls).dedup = s.dedup := rfl
@[simp] theorem State.freezePolls_faulted (s : State) : (s.freezePolls).faulted = s.faulted := rfl
@[simp] theorem State.freezePolls_faultCode (s : State) : (s.freezePolls).faultCode = s.faultCode := rfl
@[simp] theorem State.freezePolls_faultInfo (s : State) : (s.freezePolls).faultInfo = s.faultInfo := rfl
@[simp] theorem State.freezePolls_priRx (s : State) : (s.freezePolls).priRx = s.priRx := rfl
@[simp] theorem State.freezePolls_extRx (s : State) : (s.freezePolls).extRx = s.extRx := rfl
@[simp] theorem State.freezePolls_priTx (s : State) : (s.freezePolls).priTx = s.priTx := rfl
@[simp] theorem State.freezePolls_extTx (s : State) : (s.freezePolls).extTx = s.extTx := rfl
@[simp] theorem State.freezePolls_events (s : State) : (s.freezePolls).events = s.events := rfl
@[simp] theorem State.freezePolls_data (s : State) : (s.freezePolls).data = s.data := rfl
@[simp] theorem State.freezePolls_resp (s : State) : (s.freezePolls).resp = s.resp := rfl
@[simp] theorem State.freezePolls_inputs (s : State) : (s.freezePolls).inputs = s.inputs := rfl
@[simp] theorem State.freezePolls_dispatchCount (s : State) : (s.freezePolls).dispatchCount = s.dispatchCount := rfl
@[simp] theorem State.freezePolls_view (s : State) (v : View) : (s.freezePolls).view v = s.view v := by
  cases v <;> rfl

/-! ### `State.txPri` -/

@[simp] theorem State.txPri_cfg (s : State) (B : List Byte) : (s.txPri B).cfg = s.cfg := rfl
@[simp] theorem State.txPri_rbQ (s : State) (B : List Byte) : (s.txPri B).rbQ = s.rbQ := rfl
@[simp] theorem State.txPri_fb (s : State) (B : List Byte) : (s.txPri B).fb = s.fb := rfl
@[simp] theorem State.txPri_fbLen (s : State) (B : List Byte) : (s.txPri B).fbLen = s.fbLen := rfl
@[simp] theorem State.txPri_fbCat (s : State) (B : List Byte) : (s.txPri B).fbCat = s.fbCat := rfl
@[simp] theorem State.txPri_txb (s : State) (B : List Byte) : (s.txPri B).txb = s.txb := rfl
@[simp] theorem State.txPri_txbLen (s : State) (B : List Byte) : (s.txPri B).txbLen = s.txbLen := rfl
@[simp] theorem State.txPri_pcb (s : State) (B : List Byte) : (s.txPri B).pcb = s.pcb := rfl
@[simp] theorem State.txPri_dirty (s : State) (B : List Byte) : (s.txPri B).dirty = s.dirty := rfl
@[simp] theorem State.txPri_txnState (s : State) (B : List Byte) : (s.txPri B).txnState = s.txnState := rfl
@[simp] theorem State.txPri_txnTmr (s : State) (B : List Byte) : (s.txPri B).txnTmr = s.txnTmr := rfl
@[simp] theorem State.txPri_settleTmr (s : State) (B : List Byte) : (s.txPri B).settleTmr = s.settleTmr := rfl
@[simp] theorem State.txPri_pstartTmr (s : State) (B : List Byte) : (s.txPri B).pstartTmr = s.pstartTmr := rfl
@[simp] theorem State.txPri_pollDis (s : State) (B : List Byte) : (s.txPri B).pollDis = s.pollDis := rfl
@[simp] theorem State.txPri_pollCnt (s : State) (B : List Byte) : (s.txPri B).pollCnt = s.pollCnt := rfl
@[simp] theorem State.txPri_extraSup (s : State) (B : List Byte) : (s.txPri B).extraSup = s.extraSup := rfl
@[simp] theorem State.txPri_proxyActive (s : State) (B : List Byte) : (s.txPri B).proxyActive = s.proxyActive := rfl
@[simp] theorem State.txPri_extAttached (s : State) (B : List Byte) : (s.txPri B).extAttached = s.extAttached := rfl
@[simp] theorem State.txPri_dedup (s : State) (B : List Byte) : (s.txPri B).dedup = s.dedup := rfl
@[simp] theorem State.txPri_faulted (s : State) (B : List Byte) : (s.txPri B).faulted = s.faulted := rfl
@[simp] theorem State.txPri_faultCode (s : State) (B : List Byte) : (s.txPri B).faultCode = s.faultCode := rfl
@[simp] theorem State.txPri_faultInfo (s : State) (B : List Byte) : (s.txPri B).faultInfo = s.faultInfo := rfl
@[simp] theorem State.txPri_priRx (s : State) (B : List Byte) : (s.txPri B).priRx = s.priRx := rfl
@[simp] theorem State.txPri_extRx (s : State) (B : List Byte) : (s.txPri B).extRx = s.extRx := rfl
@[simp] theorem State.txPri_priTx (s : State) (B : List Byte) : (s.txPri B).priTx = s.priTx ++ B := rfl
@[simp] theorem State.txPri_extTx (s : State) (B : List Byte) : (s.txPri B).extTx = s.extTx := rfl
@[simp] theorem State.txPri_events (s : State) (B : List Byte) : (s.txPri B).events = s.events := rfl
@[simp] theorem State.txPri_data (s : State) (B : List Byte) : (s.txPri B).data = s.data := rfl
@[simp] theorem State.txPri_resp (s : State) (B : List Byte) : (s.txPri B).resp = s.resp := rfl
@[simp] theorem State.txPri_inputs (s : State) (B : List Byte) : (s.txPri B).inputs = s.inputs := rfl
@[simp] theorem State.txPri_dispatchCount (s : State) (B : List Byte) : (s.txPri B).dispatchCount = s.dispatchCount := rfl
@[simp] theorem State.txPri_view (s : State) (B : List Byte) (v : View) : (s.txPri B).view v = s.view v := by
  cases v <;> rfl

/-! ### `State.txExt` -/

@[simp] theorem State.txExt_cfg (s : State) (B : List Byte) : (s.txExt B).cfg = s.cfg := rfl
@[simp] theorem State.txExt_rbQ (s : State) (B : List Byte) : (s.txExt B).rbQ = s.rbQ := rfl
@[simp] theorem State.txExt_fb (s : State) (B : List Byte) : (s.txExt B).fb = s.fb := rfl
@[simp] theorem State.txExt_fbLen (s : State) (B : List Byte) : (s.txExt B).fbLen = s.fbLen := rfl
@[simp] theorem State.txExt_fbCat (s : State) (B : List Byte) : (s.txExt B).fbCat = s.fbCat := rfl
@[simp] theorem State.txExt_txb (s : State) (B : List Byte) : (s.txExt B).txb = s.txb := rfl
@[simp] theorem State.txExt_txbLen (s : State) (B : List Byte) : (s.txExt B).txbLen = s.txbLen := rfl
@[simp] theorem State.txExt_pcb (s : State) (B : List Byte) : (s.txExt B).pcb = s.pcb := rfl
@[simp] theorem State.txExt_dirty (s : State) (B : List Byte) : (s.txExt B).dirty = s.dirty := rfl
@[simp] theorem State.txExt_txnState (s : State) (B : List Byte) : (s.txExt B).txnState = s.txnState := rfl
@[simp] theorem State.txExt_txnTmr (s : State) (B : List Byte) : (s.txExt B).txnTmr = s.txnTmr := rfl
@[simp] theorem State.txExt_settleTmr (s : State) (B : List Byte) : (s.txExt B).settleTmr = s.settleTmr := rfl
@[simp] theorem State.txExt_pstartTmr (s : State) (B : List Byte) : (s.txExt B).pstartTmr = s.pstartTmr := rfl
@[simp] theorem State.txExt_pollDis (s : State) (B : List Byte) : (s.txExt B).pollDis = s.pollDis := rfl
@[simp] theorem State.txExt_pollCnt (s : State) (B : List Byte) : (s.txExt B).pollCnt = s.pollCnt := rfl
@[simp] theorem State.txExt_extraSup (s : State) (B : List Byte) : (s.txExt B).extraSup = s.extraSup := rfl
@[simp] theorem State.txExt_proxyActive (s : State) (B : List Byte) : (s.txExt B).proxyActive = s.proxyActive := rfl
@[simp] theorem State.txExt_extAttached (s : State) (B : List Byte) : (s.txExt B).extAttached = s.extAttached := rfl
@[simp] theorem State.txExt_dedup (s : State) (B : List Byte) : (s.txExt B).dedup = s.dedup := rfl
@[simp] theorem State.txExt_faulted (s : State) (B : List Byte) : (s.txExt B).faulted = s.faulted := rfl
@[simp] theorem State.txExt_faultCode (s : State) (B : List Byte) : (s.txExt B).faultCode = s.faultCode := rfl
@[simp] theorem State.txExt_faultInfo (s : State) (B : List Byte) : (s.txExt B).faultInfo = s.faultInfo := rfl
@[simp] theorem State.txExt_priRx (s : State) (B : List Byte) : (s.txExt B).priRx = s.priRx := rfl
@[simp] theorem State.txExt_extRx (s : State) (B : List Byte) : (s.txExt B).extRx = s.extRx := rfl
@[simp] theorem State.txExt_priTx (s : State) (B : List Byte) : (s.txExt B).priTx = s.priTx := rfl
@[simp] theorem State.txExt_extTx (s : State) (B : List Byte) : (s.txExt B).extTx = s.extTx ++ B := rfl
@[simp] theorem State.txExt_events (s : State) (B : List Byte) : (s.txExt B).events = s.events := rfl
@[simp] theorem State.txExt_data (s : State) (B : List Byte) : (s.txExt B).data = s.data := rfl
@[simp] theorem State.txExt_resp (s : State) (B : List Byte) : (s.txExt B).resp = s.resp := rfl
@[simp] theorem State.txExt_inputs (s : State) (B : List Byte) : (s.txExt B).inputs = s.inputs := rfl
@[simp] theorem State.txExt_dispatchCount (s : State) (B : List Byte) : (s.txExt B).dispatchCount = s.dispatchCount := rfl
@[simp] theorem State.txExt_view (s : State) (B : List Byte) (v : View) : (s.txExt B).view v = s.view v := by
  cases v <;> rfl

/-! ### `State.dropPri` -/

@[simp] theorem State.dropPri_cfg (s : State) (n : Nat) : (s.dropPri n).cfg = s.cfg := rfl
@[simp] theorem State.dropPri_rbQ (s : State) (n : Nat) : (s.dropPri n).rbQ = s.rbQ := rfl
@[simp] theorem State.dropPri_fb (s : State) (n : Nat) : (s.dropPri n).fb = s.fb := rfl
@[simp] theorem State.dropPri_fbLen (s : State) (n : Nat) : (s.dropPri n).fbLen = s.fbLen := rfl
@[simp] theorem State.dropPri_fbCat (s : State) (n : Nat) : (s.dropPri n).fbCat = s.fbCat := rfl
@[simp] theorem State.dropPri_txb (s : State) (n : Nat) : (s.dropPri n).txb = s.txb := rfl
@[simp] theorem State.dropPri_txbLen (s : State) (n : Nat) : (s.dropPri n).txbLen = s.txbLen := rfl
@[simp] theorem State.dropPri_pcb (s : State) (n : Nat) : (s.dropPri n).pcb = s.pcb := rfl
@[simp] theorem State.dropPri_dirty (s : State) (n : Nat) : (s.dropPri n).dirty = s.dirty := rfl
@[simp] theorem State.dropPri_txnState (s : State) (n : Nat) : (s.dropPri n).txnState = s.txnState := rfl
@[simp] theorem State.dropPri_txnTmr (s : State) (n : Nat) : (s.dropPri n).txnTmr = s.txnTmr := rfl
@[simp] theorem State.dropPri_settleTmr (s : State) (n : Nat) : (s.dropPri n).settleTmr = s.settleTmr := rfl
@[simp] theorem State.dropPri_pstartTmr (s : State) (n : Nat) : (s.dropPri n).pstartTmr = s.pstartTmr := rfl
@[simp] theorem State.dropPri_pollDis (s : State) (n : Nat) : (s.dropPri n).pollDis = s.pollDis := rfl
@[simp] theorem State.dropPri_pollCnt (s : State) (n : Nat) : (s.dropPri n).pollCnt = s.pollCnt := rfl
@[simp] theorem State.dropPri_extraSup (s : State) (n : Nat) : (s.dropPri n).extraSup = s.extraSup := rfl
@[simp] theorem State.dropPri_proxyActive (s : State) (n : Nat) : (s.dropPri n).proxyActive = s.proxyActive := rfl
@[simp] theorem State.dropPri_extAttached (s : State) (n : Nat) : (s.dropPri n).extAttached = s.extAttached := rfl
@[simp] theorem State.dropPri_dedup (s : State) (n : Nat) : (s.dropPri n).dedup = s.dedup := rfl
@[simp] theorem State.dropPri_faulted (s : State) (n : Nat) : (s.dropPri n).faulted = s.faulted := rfl
@[simp] theorem State.dropPri_faultCode (s : State) (n : Nat) : (s.dropPri n).faultCode = s.faultCode := rfl
@[simp] theorem State.dropPri_faultInfo (s : State) (n : Nat) : (s.dropPri n).faultInfo = s.faultInfo := rfl
@[simp] theorem State.dropPri_priRx (s : State) (n : Nat) : (s.dropPri n).priRx = s.priRx.drop n := rfl
@[simp] theorem State.dropPri_extRx (s : State) (n : Nat) : (s.dropPri n).extRx = s.extRx := rfl
@[simp] theorem State.dropPri_priTx (s : State) (n : Nat) : (s.dropPri n).priTx = s.priTx := rfl
@[simp] theorem State.dropPri_extTx (s : State) (n : Nat) : (s.dropPri n).extTx = s.extTx := rfl
@[simp] theorem State.dropPri_events (s : State) (n : Nat) : (s.dropPri n).events = s.events := rfl
@[simp] theorem State.dropPri_data (s : State) (n : Nat) : (s.dropPri n).data = s.data := rfl
@[simp] theorem State.dropPri_resp (s : State) (n : Nat) : (s.dropPri n).resp = s.resp := rfl
@[simp] theorem State.dropPri_inputs (s : State) (n : Nat) : (s.dropPri n).inputs = s.inputs := rfl
@[simp] theorem State.dropPri_dispatchCount (s : State) (n : Nat) : (s.dropPri n).dispatchCount = s.dispatchCount := rfl
@[simp] theorem State.dropPri_view (s : State) (n : Nat) (v : View) : (s.dropPri n).view v = s.view v := by
  cases v <;> rfl

/-! ### `State.dropExt` -/

@[simp] theorem State.dropExt_cfg (s : State) (n : Nat) : (s.dropExt n).cfg = s.cfg := rfl
@[simp] theorem State.dropExt_rbQ (s : State) (n : Nat) : (s.dropExt n).rbQ = s.rbQ := rfl
@[simp] theorem State.dropExt_fb (s : State) (n : Nat) : (s.dropExt n).fb = s.fb := rfl
@[simp] theorem State.dropExt_fbLen (s : State) (n : Nat) : (s.dropExt n).fbLen = s.fbLen := rfl
@[simp] theorem State.dropExt_fbCat (s : State) (n : Nat) : (s.dropExt n).fbCat = s.fbCat := rfl
@[simp] theorem State.dropExt_txb (s : State) (n : Nat) : (s.dropExt n).txb = s.txb := rfl
@[simp] theorem State.dropExt_txbLen (s : State) (n : Nat) : (s.dropExt n).txbLen = s.txbLen := rfl
@[simp] theorem State.dropExt_pcb (s : State) (n : Nat) : (s.dropExt n).pcb = s.pcb := rfl
@[simp] theorem State.dropExt_dirty (s : State) (n : Nat) : (s.dropExt n).dirty = s.dirty := rfl
@[simp] theorem State.dropExt_txnState (s : State) (n : Nat) : (s.dropExt n).txnState = s.txnState := rfl
@[simp] theorem State.dropExt_txnTmr (s : State) (n : Nat) : (s.dropExt n).txnTmr = s.txnTmr := rfl
@[simp] theorem State.dropExt_settleTmr (s : State) (n : Nat) : (s.dropExt n).settleTmr = s.settleTmr := rfl
@[simp] theorem State.dropExt_pstartTmr (s : State) (n : Nat) : (s.dropExt n).pstartTmr = s.pstartTmr := rfl
@[simp] theorem State.dropExt_pollDis (s : State) (n : Nat) : (s.dropExt n).pollDis = s.pollDis := rfl
@[simp] theorem State.dropExt_pollCnt (s : State) (n : Nat) : (s.dropExt n).pollCnt = s.pollCnt := rfl
@[simp] theorem State.dropExt_extraSup (s : State) (n : Nat) : (s.dropExt n).extraSup = s.extraSup := rfl
@[simp] theorem State.dropExt_proxyActive (s : State) (n : Nat) : (s.dropExt n).proxyActive = s.proxyActive := rfl
@[simp] theorem State.dropExt_extAttached (s : State) (n : Nat) : (s.dropExt n).extAttached = s.extAttached := rfl
@[simp] theorem State.dropExt_dedup (s : State) (n : Nat) : (s.dropExt n).dedup = s.dedup := rfl
@[simp] theorem State.dropExt_faulted (s : State) (n : Nat) : (s.dropExt n).faulted = s.faulted := rfl
@[simp] theorem State.dropExt_faultCode (s : State) (n : Nat) : (s.dropExt n).faultCode = s.faultCode := rfl
@[simp] theorem State.dropExt_faultInfo (s : State) (n : Nat) : (s.dropExt n).faultInfo = s.faultInfo := rfl
@[simp] theorem State.dropExt_priRx (s : State) (n : Nat) : (s.dropExt n).priRx = s.priRx := rfl
@[simp] theorem State.dropExt_extRx (s : State) (n : Nat) : (s.dropExt n).extRx = s.extRx.drop n := rfl
@[simp] theorem State.dropExt_priTx (s : State) (n : Nat) : (s.dropExt n).priTx = s.priTx := rfl
@[simp] theorem State.dropExt_extTx (s : State) (n : Nat) : (s.dropExt n).extTx = s.extTx := rfl
@[simp] theorem State.dropExt_events (s : State) (n : Nat) : (s.dropExt n).events = s.events := rfl
@[simp] theorem State.dropExt_data (s : State) (n : Nat) : (s.dropExt n).data = s.data := rfl
@[simp] theorem State.dropExt_resp (s : State) (n : Nat) : (s.dropExt n).resp = s.resp := rfl
@[simp] theorem State.dropExt_inputs (s : State) (n : Nat) : (s.dropExt n).inputs = s.inputs := rfl
@[simp] theorem State.dropExt_dispatchCount (s : State) (n : Nat) : (s.dropExt n).dispatchCount = s.dispatchCount := rfl
@[simp] theorem State.dropExt_view (s : State) (n : Nat) (v : View) : (s.dropExt n).view v = s.view v := by
  cases v <;> rfl

/-! ### `build` -/

@[simp] theorem build_cfg (s : State) (pre cat : Byte) (data : List Byte) :
    (build s pre cat data).cfg = s.cfg := rfl
@[simp] theorem build_rbQ (s : State) (pre cat : Byte) (data : List Byte) :
    (build s pre cat data).rbQ = s.rbQ := rfl
@[simp] theorem build_fb (s : State) (pre cat : Byte) (data : List Byte) :
    (build s pre cat data).fb = s.fb := rfl
@[simp] theorem build_fbLen (s : State) (pre cat : Byte) (data : List Byte) :
    (build s pre cat data).fbLen = s.fbLen := rfl
@[simp] theorem build_fbCat (s : State) (pre cat : Byte) (data : List Byte) :
    (build s pre cat data).fbCat = s.fbCat := rfl
@[simp] theorem build_txb (s : State) (pre cat : Byte) (data : List Byte) :
    (build s pre cat data).txb = s.txb.writeAll 0 (frameBytes s.cfg pre cat data) := rfl
@[simp] theorem build_txbLen (s : State) (pre cat : Byte) (data : List Byte) :
    (build s pre cat data).txbLen = data.length + 5 := rfl
@[simp] theorem build_pcb (s : State) (pre cat : Byte) (data : List Byte) :
    (build s pre cat data).pcb = s.pcb := rfl
@[simp] theorem build_dirty (s : State) (pre cat : Byte) (data : List Byte) :
    (build s pre cat data).dirty = s.dirty := rfl
@[simp] theorem build_txnState (s : State) (pre cat : Byte) (data : List Byte) :
    (build s pre cat data).txnState = s.txnState := rfl
@[simp] theorem build_txnTmr (s : State) (pre cat : Byte) (data : List Byte) :
    (build s pre cat data).txnTmr = s.txnTmr := rfl
@[simp] theorem build_settleTmr (s : State) (pre cat : Byte) (data : List Byte) :
    (build s pre cat data).settleTmr = s.settleTmr := rfl
@[simp] theorem build_pstartTmr (s : State) (pre cat : Byte) (data : List Byte) :
    (build s pre cat data).pstartTmr = s.pstartTmr := rfl
@[simp] theorem build_pollDis (s : State) (pre cat : Byte) (data : List Byte) :
    (build s pre cat data).pollDis = s.pollDis := rfl
@[simp] theorem build_pollCnt (s : State) (pre cat : Byte) (data : List Byte) :
    (build s pre cat data).pollCnt = s.pollCnt := rfl
@[simp] theorem build_extraSup (s : State) (pre cat : Byte) (data : List Byte) :
    (build s pre cat data).extraSup = s.extraSup := rfl
@[simp] theorem build_proxyActive (s : State) (pre cat : Byte) (data : List Byte) :
    (build s pre cat data).proxyActive = s.proxyActive := rfl
@[simp] theorem build_extAttached (s : State) (pre cat : Byte) (data : List Byte) :
    (build s pre cat data).extAttached = s.extAttached := rfl
@[simp] theorem build_dedup (s : State) (pre cat : Byte) (data : List Byte) :
    (build s pre cat data).dedup = s.dedup := rfl
@[simp] theorem build_faulted (s : State) (pre cat : Byte) (data : List Byte) :
    (build s pre cat data).faulted = s.faulted := rfl
@[simp] theorem build_faultCode (s : State) (pre cat : Byte) (data : List Byte) :
    (build s pre cat data).faultCode = s.faultCode := rfl
@[simp] theorem build_faultInfo (s : State) (pre cat : Byte) (data : List Byte) :
    (build s pre cat data).faultInfo = s.faultInfo := rfl
@[simp] theorem build_priRx (s : State) (pre cat : Byte) (data : List Byte) :
    (build s pre cat data).priRx = s.priRx := rfl
@[simp] theorem build_extRx (s : State) (pre cat : Byte) (data : List Byte) :
    (build s pre cat data).extRx = s.extRx := rfl
@[simp] theorem build_priTx (s : State) (pre cat : Byte) (data : List Byte) :
    (build s pre cat data).priTx = s.priTx := rfl
@[simp] theorem build_extTx (s : State) (pre cat : Byte) (data : List Byte) :
    (build s pre cat data).extTx = s.extTx := rfl
@[simp] theorem build_events (s : State) (pre cat : Byte) (data : List Byte) :
    (build s pre cat data).events = s.events := rfl
@[simp] theorem build_data (s : State) (pre cat : Byte) (data : List Byte) :
    (build s pre cat data).data = s.data := rfl
@[simp] theorem build_resp (s : State) (pre cat : Byte) (data : List Byte) :
    (build s pre cat data).resp = s.resp := rfl
@[simp] theorem build_inputs (s : State) (pre cat : Byte) (data : List Byte) :
    (build s pre cat data).inputs = s.inputs := rfl
@[simp] theorem build_dispatchCount (s : State) (pre cat : Byte) (data : List Byte) :
    (build s pre cat data).dispatchCount = s.dispatchCount := rfl

end Sys2Proof.Machine
end

