-- ==== Sys2Proof/Laws/Ops.lean ====
section
/-! SUPPORT. One law for each shared operation: everything it can do. -/

namespace Sys2Proof.Machine

/-! ### One command (30_encoding.md R113) -/

@[simp] theorem perform_done (s t : State) (r : Response) : s.perform (.done r t) = t.respond r := rfl

@[simp] theorem perform_raise (s : State) (c : FaultCode) (info : Nat) :
    s.perform (.raise c info) = s.enterFault c info := rfl

@[simp] theorem perform_ofPair (s : State) (p : Response × State) :
    s.perform (Effect.ofPair p) = p.2.respond p.1 := rfl

theorem command_faulted {α : Type} (i : Instr) (takes : Data → Option α) (body : α → Effect) (s : State)
    (h : s.faulted = true) : command i takes body s = .next s.respondFaulted := by simp [command, h]

theorem command_wrong {α : Type} (i : Instr) (takes : Data → Option α) (body : α → Effect) (s : State)
    (h : s.faulted = false) (hd : takes s.data = none) :
    command i takes body s = .next (s.enterFault .dataRange (opcodeOf i).toNat) := by simp [command, h, hd]

theorem command_run {α : Type} (i : Instr) (takes : Data → Option α) (body : α → Effect) (s : State) (d : α)
    (h : s.faulted = false) (hd : takes s.data = some d) :
    command i takes body s = .next (s.perform (body d)) := by simp [command, h, hd]

/-- Everything a command can do. -/
theorem command_cases {α : Type} {i : Instr} {takes : Data → Option α} {body : α → Effect} {s t : State}
    (h : command i takes body s = .next t) :
    (s.faulted = true ∧ t = s.respondFaulted) ∨
    (s.faulted = false ∧ takes s.data = none ∧ t = s.enterFault .dataRange (opcodeOf i).toNat) ∨
    (s.faulted = false ∧ ∃ d, takes s.data = some d ∧
      ((∃ r u, body d = .done r u ∧ t = u.respond r) ∨
        ∃ c info, body d = .raise c info ∧ t = s.enterFault c info)) := by
  unfold command at h
  split at h
  · next hf => exact .inl ⟨hf, by simpa using h.symm⟩
  · next hf =>
    have hf : s.faulted = false := by simpa using hf
    split at h
    · next hd => exact .inr (.inl ⟨hf, hd, by simpa using h.symm⟩)
    · next d hd =>
      refine .inr (.inr ⟨hf, d, hd, ?_⟩)
      have h : t = s.perform (body d) := by simpa using h.symm
      cases hb : body d with
      | done r u => exact .inl ⟨r, u, rfl, by simpa [hb] using h⟩
      | raise c info => exact .inr ⟨c, info, rfl, by simpa [hb] using h⟩

/-- A command always answers a next state. -/
theorem command_next {α : Type} (i : Instr) (takes : Data → Option α) (body : α → Effect) (s : State) :
    ∃ t, command i takes body s = .next t := by
  unfold command
  split
  · exact ⟨_, rfl⟩
  · split <;> exact ⟨_, rfl⟩

/-! ### The data port (R107) -/

@[simp] theorem takesNothing_empty : takesNothing .empty = some () := rfl

@[simp] theorem takesNat_nat (n : Nat) : takesNat (.nat n) = some n := rfl

@[simp] theorem takesBytes_bytes (n : Nat) (B : List Byte) :
    takesBytes n (.bytes B) = if B.length = n then some B else none := rfl

@[simp] theorem takesValue_value (v : Value) : takesValue (.value v) = some v := rfl

theorem takesNothing_some {d : Data} {u : Unit} (h : takesNothing d = some u) : d = .empty := by
  cases d <;> simp_all [takesNothing]

theorem takesNat_some {d : Data} {n : Nat} (h : takesNat d = some n) : d = .nat n := by
  cases d <;> simp_all [takesNat]

theorem takesBytes_some {d : Data} {n : Nat} {B : List Byte} (h : takesBytes n d = some B) :
    d = .bytes B ∧ B.length = n := by
  cases d <;> simp [takesBytes] at h ⊢
  exact ⟨h.2, h.2 ▸ h.1⟩

theorem takesValue_some {d : Data} {v : Value} (h : takesValue d = some v) : d = .value v := by
  cases d <;> simp_all [takesValue]

/-- A command with no operand, from a ready engine. -/
theorem command_empty (i : Instr) (body : Unit → Effect) (s : State) (h : Ready s .empty) :
    command i takesNothing body s = .next (s.perform (body ())) :=
  command_run i takesNothing body s () h.1 (by rw [h.2]; rfl)

/-! ### The checks -/

theorem whenWritable_of_writable {v : View} (h : readOnly v = false) (body : Effect) : whenWritable v body = body := by
  simp [whenWritable, h]

theorem whenWritable_of_readOnly {v : View} (h : readOnly v = true) (body : Effect) :
    whenWritable v body = .raise .viewRo (viewNumber v) := by simp [whenWritable, h]

theorem withSlot_some {s : State} {slot : BitVec 8} {d : Slot} (h : s.cfg.slots[slot.toNat]? = some d)
    (body : Slot → Effect) : withSlot s slot body = body d := by simp only [withSlot, h]

theorem withSlot_none {s : State} {slot : BitVec 8} (h : s.cfg.slots.length ≤ slot.toNat) (body : Slot → Effect) :
    withSlot s slot body = .raise .slotRange slot.toNat := by
  simp only [withSlot, List.getElem?_eq_none h]

theorem whenKind_eq {k : Kind} {d : Slot} (h : d.kind = k) (slot : BitVec 8) (body : Effect) :
    whenKind k slot d body = body := by simp [whenKind, h]

theorem whenKind_ne {k : Kind} {d : Slot} (h : d.kind ≠ k) (slot : BitVec 8) (body : Effect) :
    whenKind k slot d body = .raise .slotKind slot.toNat := by simp [whenKind, h]

theorem whenTakes_true {d : Slot} {x : Value} (h : kindTakes d.kind x = true) (slot : BitVec 8) (body : Effect) :
    whenTakes slot d x body = body := by simp [whenTakes, h]

theorem whenTakes_false {d : Slot} {x : Value} (h : kindTakes d.kind x = false) (slot : BitVec 8) (body : Effect) :
    whenTakes slot d x body = .raise .dataRange slot.toNat := by simp [whenTakes, h]

/-! ### Views (20_memory.md R71) -/

theorem view_v0_length (s : State) : (s.view .v0).length = s.fbLen - 5 := Memory.length_slice _ _ _
theorem view_v1_length (s : State) : (s.view .v1).length = s.cfg.cmdN := Memory.length_slice _ _ _
theorem view_v2_length (s : State) : (s.view .v2).length = s.txbLen := Memory.length_slice _ _ _
theorem view_v3_length (s : State) : (s.view .v3).length = s.fbLen := Memory.length_slice _ _ _

theorem byteAt_view_v1 (s : State) {i : Nat} (h : i < s.cfg.cmdN) : byteAt (s.view .v1) i = s.pcb.read i := by
  rw [State.view, Memory.byteAt_slice _ _ _ _ h, Nat.zero_add]

theorem byteAt_view_v2 (s : State) {i : Nat} (h : i < s.txbLen) : byteAt (s.view .v2) i = s.txb.read i := by
  rw [State.view, Memory.byteAt_slice _ _ _ _ h, Nat.zero_add]

theorem byteAt_view_v3 (s : State) {i : Nat} (h : i < s.fbLen) : byteAt (s.view .v3) i = s.fb.read i := by
  rw [State.view, Memory.byteAt_slice _ _ _ _ h, Nat.zero_add]

theorem store_view_length (s : State) (v u : View) (off : Nat) (B : List Byte) :
    ((s.store v off B).view u).length = (s.view u).length := by
  cases v <;> cases u <;> simp [State.store, State.view]

/-- A store at a writable view stores its bytes and nothing else. -/
theorem stored_store (s : State) {v : View} (off : Nat) (B : List Byte) (h : readOnly v = false) :
    Stored s (s.store v off B) v off B := by
  cases v with
  | v0 => simp [readOnly] at h
  | v3 => simp [readOnly] at h
  | v1 => exact ⟨rfl, fun a => Memory.read_writeAll B s.pcb off a⟩
  | v2 => exact ⟨rfl, fun a => Memory.read_writeAll B s.txb off a⟩

/-- Storing a whole view that differs in the bytes from `off` on alone stores those bytes. -/
theorem stored_store_whole (s : State) {v : View} (off : Nat) (B V : List Byte) (h : readOnly v = false)
    (hV : V.length = (s.view v).length) (ho : off + B.length ≤ V.length)
    (hb : ∀ i < V.length, byteAt V i =
      if off ≤ i ∧ i < off + B.length then byteAt B (i - off) else byteAt (s.view v) i) :
    Stored s (s.store v 0 V) v off B := by
  cases v with
  | v0 => simp [readOnly] at h
  | v3 => simp [readOnly] at h
  | v1 =>
    refine ⟨rfl, fun a => ?_⟩
    rw [view_v1_length] at hV
    rw [show (s.store .v1 0 V).pcb = s.pcb.writeAll 0 V from rfl, Memory.read_writeAll]
    by_cases ha : a < V.length
    · rw [if_pos ⟨Nat.zero_le _, by omega⟩, Nat.sub_zero, hb a ha, byteAt_view_v1 s (by omega)]
    · rw [if_neg (by omega), if_neg (by omega)]
  | v2 =>
    refine ⟨rfl, fun a => ?_⟩
    rw [view_v2_length] at hV
    rw [show (s.store .v2 0 V).txb = s.txb.writeAll 0 V from rfl, Memory.read_writeAll]
    by_cases ha : a < V.length
    · rw [if_pos ⟨Nat.zero_le _, by omega⟩, Nat.sub_zero, hb a ha, byteAt_view_v2 s (by omega)]
    · rw [if_neg (by omega), if_neg (by omega)]

/-- A store keeps the canonical form of the arrays. -/
theorem store_wf (s : State) (v : View) (off : Nat) (B : List Byte)
    (h : s.fb.wf = true ∧ s.txb.wf = true ∧ s.pcb.wf = true) :
    (s.store v off B).fb.wf = true ∧ (s.store v off B).txb.wf = true ∧ (s.store v off B).pcb.wf = true := by
  cases v with
  | v0 => exact h
  | v3 => exact h
  | v1 => exact ⟨h.1, h.2.1, Memory.wf_writeAll B off h.2.2⟩
  | v2 => exact ⟨h.1, Memory.wf_writeAll B off h.2.1, h.2.2⟩

/-! ### Frames (44_frame.md) -/

@[simp] theorem frameBytes_length (c : Config) (pre cat : Byte) (data : List Byte) :
    (frameBytes c pre cat data).length = data.length + 5 := by simp [frameBytes, frameHead]

theorem build_wf (s : State) (pre cat : Byte) (data : List Byte) (h : s.txb.wf = true) :
    (build s pre cat data).txb.wf = true := Memory.wf_writeAll _ 0 h

theorem acceptFrame_wf (s : State) (F : List Byte) (h : s.fb.wf = true) : (acceptFrame s F).fb.wf = true :=
  Memory.wf_writeAll _ 0 h

/-- PARSE writes the buffer, the received frame and the events, and nothing else. -/
theorem parseBody_frame (s : State) :
    (parseBody s).2 = { s with
      rbQ := (parseBody s).2.rbQ
      fb := (parseBody s).2.fb
      fbLen := (parseBody s).2.fbLen
      fbCat := (parseBody s).2.fbCat
      events := (parseBody s).2.events } := by
  simp only [parseBody, parseAligned, finishFrame]
  repeat' split
  all_goals rfl

/-- PARSE answers OK with the class of the frame it accepts, and no other status with a class. -/
theorem parseBody_ok_iff (s : State) :
    (parseBody s).1.status = .ok ↔ (parseBody s).1 = ⟨.ok, .cls (parseBody s).2.fbCat⟩ := by
  simp only [parseBody, parseAligned, finishFrame]
  repeat' split
  all_goals simp [acceptFrame]

/-! ### Dispatch (45_arbiter.md R297) -/

/-- DISPATCH writes the cells, the events, `EXTRA_SUP` and the model's own count, and nothing else. -/
theorem dispatchBody_frame (s : State) :
    (dispatchBody s).2 = { s with
      dedup := (dispatchBody s).2.dedup
      extraSup := (dispatchBody s).2.extraSup
      events := (dispatchBody s).2.events
      dispatchCount := (dispatchBody s).2.dispatchCount } := by
  simp only [dispatchBody, notifyAll]
  split <;> rfl

/-- The arranged slots are the slots, in some order. -/
theorem arrange_perm (rank : Nat → Nat) (l : List Nat) : (arrange rank l).Perm l := by
  have ins : ∀ (a : Nat) (m : List Nat), (insertByRank rank a m).Perm (a :: m) := by
    intro a m
    induction m with
    | nil => exact List.Perm.refl _
    | cons b bs ih =>
      rw [insertByRank]
      split
      · exact List.Perm.refl _
      · exact (ih.cons b).trans (List.Perm.swap a b bs)
  induction l with
  | nil => exact List.Perm.refl _
  | cons a as ih => exact (ins a _).trans (ih.cons a)

/-! ### The three bodies of a tick (45_arbiter.md R302 to R304) -/

/-- RX_PRI writes the buffer, the received frame, the cells, the transaction and the two transports it moves bytes
between, and nothing else. -/
theorem rxPriBody_frame (s : State) :
    (rxPriBody s).2 = { s with
      rbQ := (rxPriBody s).2.rbQ
      fb := (rxPriBody s).2.fb
      fbLen := (rxPriBody s).2.fbLen
      fbCat := (rxPriBody s).2.fbCat
      txnState := (rxPriBody s).2.txnState
      txnTmr := (rxPriBody s).2.txnTmr
      dedup := (rxPriBody s).2.dedup
      extraSup := (rxPriBody s).2.extraSup
      priRx := (rxPriBody s).2.priRx
      extTx := (rxPriBody s).2.extTx
      events := (rxPriBody s).2.events
      dispatchCount := (rxPriBody s).2.dispatchCount } := by
  have h1 := parseBody_frame (takeBatch s)
  have h2 := dispatchBody_frame (parseBody (takeBatch s)).2
  simp only [rxPriBody, afterParse]
  split
  · simp only [State.closeTxn]
    rw [h2, h1]
    rfl
  · rw [h1]
    rfl

/-- RX_EXT writes the transaction, the two proxy bits and the two transports, and nothing else. -/
theorem rxExtBody_frame (s : State) :
    (rxExtBody s).2 = { s with
      txnState := (rxExtBody s).2.txnState
      txnTmr := (rxExtBody s).2.txnTmr
      proxyActive := (rxExtBody s).2.proxyActive
      pollDis := (rxExtBody s).2.pollDis
      priTx := (rxExtBody s).2.priTx
      extRx := (rxExtBody s).2.extRx } := by
  simp only [rxExtBody, contendExt]
  repeat' split
  all_goals rfl

/-- FLUSH writes the transaction, TXB, PCB, DIRTY and PRI's output, and nothing else. -/
theorem flushBody_frame (s : State) :
    (flushBody s).2 = { s with
      txnState := (flushBody s).2.txnState
      txnTmr := (flushBody s).2.txnTmr
      txb := (flushBody s).2.txb
      txbLen := (flushBody s).2.txbLen
      pcb := (flushBody s).2.pcb
      dirty := (flushBody s).2.dirty
      priTx := (flushBody s).2.priTx } := by
  simp only [flushBody]
  repeat' split
  all_goals rfl

/-! ### The terms of Safety.lean -/

theorem answers_iff (i : Instr) (s t : State) (r : Response) : Answers i s r t ↔ exec i s = .next (t.respond r) :=
  Iff.rfl

theorem raises_iff (i : Instr) (s : State) (c : FaultCode) (info : Nat) :
    Raises i s c info ↔ exec i s = .next (s.enterFault c info) := Iff.rfl

/-! ### Every instruction and every step answers a next state -/

theorem exec_next (i : Instr) (s : State) : ∃ t, exec i s = .next t := by
  cases i <;> first
    | exact command_next _ _ _ _
    | exact ⟨_, rfl⟩
    | (simp only [exec, execRdStatus, execFrameTxInit, execFrameTxStdPoll, execFrameTxExtPoll, execFrameTxCmd,
        transmitFrame]
       split
       · exact ⟨_, rfl⟩
       · first | exact ⟨_, rfl⟩ | exact command_next _ _ _ _)

theorem step_next (s : State) : ∃ t, step s = .next t := by
  unfold step
  split
  · exact ⟨_, rfl⟩
  · split
    · exact exec_next _ _
    · exact ⟨_, rfl⟩

/-! ### The arithmetic of `CFG.NUM` (R202) under this spec's value -/

@[simp] theorem NumModel_ofNat_exact (n : Nat) : NumModel.exactRationals.ofNat n = (n : Rat) := rfl
@[simp] theorem NumModel_add_exact (a b : Num) : NumModel.exactRationals.add a b = a + b := rfl
@[simp] theorem NumModel_sub_exact (a b : Num) : NumModel.exactRationals.sub a b = a - b := rfl
@[simp] theorem NumModel_mul_exact (a b : Num) : NumModel.exactRationals.mul a b = a * b := rfl
@[simp] theorem NumModel_div_exact (a b : Num) : NumModel.exactRationals.div a b = a / b := rfl
@[simp] theorem NumModel_trunc_exact (a : Num) : NumModel.exactRationals.trunc a = truncNum a := rfl

/-! ### The slot checks of a configuration (60_exceptions.md R356) -/

/-- The number found, counted from `s`, is that of the first slot that fails its check. -/
theorem firstBadSlot_eq_some_iff (c : Config) (l : List Slot) (s k : Nat) :
    firstBadSlot c s l = some k ↔
      s ≤ k ∧ (∃ d, l[k - s]? = some d ∧ Slot.ok c d = false) ∧
        ∀ n < k - s, ∀ d, l[n]? = some d → Slot.ok c d = true := by
  induction l generalizing s with
  | nil => simp [firstBadSlot]
  | cons d ds ih =>
    rw [firstBadSlot]
    split
    · next h =>
      rw [ih]
      constructor
      · rintro ⟨a, ⟨e, he, hk⟩, hn⟩
        refine ⟨by omega, ⟨e, ?_, hk⟩, fun n hn' e' he' => ?_⟩
        · rw [show k - s = (k - (s + 1)) + 1 by omega]
          simpa using he
        · cases n with
          | zero => obtain rfl : d = e' := by simpa using he'
                    exact h
          | succ n => exact hn n (by omega) e' (by simpa using he')
      · rintro ⟨a, ⟨e, he, hk⟩, hn⟩
        have hne : s ≠ k := by
          rintro rfl
          obtain rfl : d = e := by simpa using he
          simp [h] at hk
        refine ⟨by omega, ⟨e, ?_, hk⟩, fun n hn' e' he' => hn (n + 1) (by omega) e' (by simpa using he')⟩
        rw [show k - s = (k - (s + 1)) + 1 by omega] at he
        simpa using he
    · next h =>
      have h : Slot.ok c d = false := by simpa using h
      constructor
      · intro hk
        obtain rfl : s = k := by simpa using hk
        exact ⟨le_refl _, ⟨d, by simp, h⟩, by simp⟩
      · rintro ⟨a, -, hn⟩
        by_contra hne
        have hd := hn 0 (by simp at hne; omega) d (by simp)
        simp [h] at hd

/-! ### Reset -/

/-- The arrays after reset list nothing, so they are in canonical form. -/
theorem applyReset_arrays (c : Config) (s : State) :
    (s.applyReset c).fb = [] ∧ (s.applyReset c).txb = [] ∧ (s.applyReset c).pcb = [] := ⟨rfl, rfl, rfl⟩

theorem reset_memory_wf : State.reset.fb.wf = true ∧ State.reset.txb.wf = true ∧ State.reset.pcb.wf = true :=
  ⟨rfl, rfl, rfl⟩

end Sys2Proof.Machine
end

