-- ==== Sys2Proof/Laws/PerInstr.lean ====
section
/-! SUPPORT. The encoding of every instruction against its row of the opcode table (30_encoding.md R110, R127): the
fixed bits of the row's mask are the row's match, whatever the operands. -/

namespace Sys2Proof.Laws

/-- The mask and the match of the instruction's row in the opcode table. -/
def tableRow : Instr → Word × Word
  | .nop => (0xFFFFFFFF#32, 0x00000000#32)
  | .rbSize => (0xFFFFFFFF#32, 0x01000000#32)
  | .rbPush _ => (0xFF007FFF#32, 0x02000000#32)
  | .rbPeek _ => (0xFF007FFF#32, 0x03000000#32)
  | .rbPop => (0xFFFFFFFF#32, 0x04000000#32)
  | .rbDiscardUntil _ => (0xFFFF807F#32, 0x05000000#32)
  | .rdBits _ _ _ _ => (0xFF000007#32, 0x10000000#32)
  | .wrBits _ _ _ _ => (0xFF000007#32, 0x11000000#32)
  | .rdBytes _ _ _ => (0xFF001E07#32, 0x12000000#32)
  | .wrBytes _ _ _ => (0xFF001E07#32, 0x13000000#32)
  | .rdArray _ _ _ => (0xFF001E07#32, 0x14000000#32)
  | .wrArray _ _ _ => (0xFF001E07#32, 0x15000000#32)
  | .decTri _ _ => (0xFF003FFF#32, 0x20000000#32)
  | .encTri _ _ => (0xFF003FFF#32, 0x21000000#32)
  | .decScaled _ _ => (0xFF003FFF#32, 0x22000000#32)
  | .encScaled _ _ => (0xFF003FFF#32, 0x23000000#32)
  | .decIndex _ _ => (0xFF003FFF#32, 0x24000000#32)
  | .encIndex _ _ => (0xFF003FFF#32, 0x25000000#32)
  | .decKeyed _ _ => (0xFF003FFF#32, 0x26000000#32)
  | .encKeyed _ _ => (0xFF003FFF#32, 0x27000000#32)
  | .decCustom _ _ => (0xFF003FFF#32, 0x28000000#32)
  | .encCustom _ _ => (0xFF003FFF#32, 0x29000000#32)
  | .slotNotify _ => (0xFFC03FFF#32, 0x2A000000#32)
  | .slotWrite _ => (0xFFC03FFF#32, 0x2B000000#32)
  | .parse => (0xFFFFFFFF#32, 0x40000000#32)
  | .ckGen => (0xFFFFFFFF#32, 0x41000000#32)
  | .ckChk _ => (0xFF3FFFFF#32, 0x42000000#32)
  | .serInit => (0xFFFFFFFF#32, 0x43000000#32)
  | .serStd => (0xFFFFFFFF#32, 0x44000000#32)
  | .serExt => (0xFFFFFFFF#32, 0x45000000#32)
  | .serCmd => (0xFFFFFFFF#32, 0x46000000#32)
  | .txSend => (0xFFFFFFFF#32, 0x47000000#32)
  | .txnStartInt => (0xFFFFFFFF#32, 0x50000000#32)
  | .txnStartExt => (0xFFFFFFFF#32, 0x51000000#32)
  | .txnStop => (0xFFFFFFFF#32, 0x52000000#32)
  | .dispatch => (0xFFFFFFFF#32, 0x53000000#32)
  | .rxPri => (0xFFFFFFFF#32, 0x54000000#32)
  | .rxExt => (0xFFFFFFFF#32, 0x55000000#32)
  | .flush => (0xFFFFFFFF#32, 0x56000000#32)
  | .rdStatus _ => (0xFF3FFFFF#32, 0x5F000000#32)
  | .evLoop => (0xFFFFFFFF#32, 0x60000000#32)
  | .evUpdate => (0xFFFFFFFF#32, 0x61000000#32)
  | .evTimeout => (0xFFFFFFFF#32, 0x62000000#32)
  | .evSettle => (0xFFFFFFFF#32, 0x63000000#32)
  | .evPstart => (0xFFFFFFFF#32, 0x64000000#32)
  | .frameTxInit _ => (0xFFFF00FF#32, 0x31080001#32)
  | .frameTxStdPoll _ => (0xFFFF00FF#32, 0x716F0010#32)
  | .frameTxExtPoll _ => (0xFFFF00FF#32, 0x716F0021#32)
  | .frameTxCmd _ _ => (0xFFFF0000#32, 0xF16F0000#32)
  | .frameRxPrePoll _ _ _ => (0xFF000000#32, 0x71000000#32)
  | .frameRxPreCmd _ _ _ => (0xFF000000#32, 0xF1000000#32)
  | .frameRxPreInit _ _ _ => (0xFF000000#32, 0x31000000#32)
  | .frameRxCatInit _ _ _ => (0x000000FF#32, 0x00000001#32)
  | .frameRxCatStd _ _ _ => (0x000000FF#32, 0x00000010#32)
  | .frameRxCatExtra _ _ _ => (0x000000FF#32, 0x00000021#32)

namespace TableRow

/-- The word of the instruction carries its row's fixed bits (R110). -/
def Statement (i : Instr) : Prop := encode i &&& (tableRow i).1 = (tableRow i).2

theorem nop : Statement .nop := rfl

theorem rbSize : Statement .rbSize := rfl

theorem rbPush (cnt : BitVec 9) : Statement (.rbPush cnt) := by
  apply BitVec.eq_of_getLsbD_eq
  intro i hi
  simp only [encode, tableRow, BitVec.getLsbD_and, encodeR_bit]
  interval_cases i <;> simp

theorem rbPeek (cnt : BitVec 9) : Statement (.rbPeek cnt) := by
  apply BitVec.eq_of_getLsbD_eq
  intro i hi
  simp only [encode, tableRow, BitVec.getLsbD_and, encodeR_bit]
  interval_cases i <;> simp

theorem rbPop : Statement .rbPop := rfl

theorem rbDiscardUntil (mrk : Byte) : Statement (.rbDiscardUntil mrk) := by
  apply BitVec.eq_of_getLsbD_eq
  intro i hi
  simp only [encode, tableRow, BitVec.getLsbD_and, encodeR_bit]
  interval_cases i <;> simp

theorem rdBits (view : View) (off : BitVec 9) (bit : BitVec 4) (w : BitVec 6) : Statement (.rdBits view off bit w) := by
  apply BitVec.eq_of_getLsbD_eq
  intro i hi
  simp only [encode, tableRow, BitVec.getLsbD_and, encodeB_bit]
  interval_cases i <;> simp

theorem wrBits (view : View) (off : BitVec 9) (bit : BitVec 4) (w : BitVec 6) : Statement (.wrBits view off bit w) := by
  apply BitVec.eq_of_getLsbD_eq
  intro i hi
  simp only [encode, tableRow, BitVec.getLsbD_and, encodeB_bit]
  interval_cases i <;> simp

theorem rdBytes (view : View) (off : BitVec 9) (w : BitVec 6) : Statement (.rdBytes view off w) := by
  apply BitVec.eq_of_getLsbD_eq
  intro i hi
  simp only [encode, tableRow, BitVec.getLsbD_and, encodeB_bit]
  interval_cases i <;> simp

theorem wrBytes (view : View) (off : BitVec 9) (w : BitVec 6) : Statement (.wrBytes view off w) := by
  apply BitVec.eq_of_getLsbD_eq
  intro i hi
  simp only [encode, tableRow, BitVec.getLsbD_and, encodeB_bit]
  interval_cases i <;> simp

theorem rdArray (view : View) (off : BitVec 9) (w : BitVec 6) : Statement (.rdArray view off w) := by
  apply BitVec.eq_of_getLsbD_eq
  intro i hi
  simp only [encode, tableRow, BitVec.getLsbD_and, encodeB_bit]
  interval_cases i <;> simp

theorem wrArray (view : View) (off : BitVec 9) (w : BitVec 6) : Statement (.wrArray view off w) := by
  apply BitVec.eq_of_getLsbD_eq
  intro i hi
  simp only [encode, tableRow, BitVec.getLsbD_and, encodeB_bit]
  interval_cases i <;> simp

theorem decTri (view : View) (slot : BitVec 8) : Statement (.decTri view slot) := by
  apply BitVec.eq_of_getLsbD_eq
  intro i hi
  simp only [encode, tableRow, BitVec.getLsbD_and, encodeS_bit]
  interval_cases i <;> simp

theorem encTri (view : View) (slot : BitVec 8) : Statement (.encTri view slot) := by
  apply BitVec.eq_of_getLsbD_eq
  intro i hi
  simp only [encode, tableRow, BitVec.getLsbD_and, encodeS_bit]
  interval_cases i <;> simp

theorem decScaled (view : View) (slot : BitVec 8) : Statement (.decScaled view slot) := by
  apply BitVec.eq_of_getLsbD_eq
  intro i hi
  simp only [encode, tableRow, BitVec.getLsbD_and, encodeS_bit]
  interval_cases i <;> simp

theorem encScaled (view : View) (slot : BitVec 8) : Statement (.encScaled view slot) := by
  apply BitVec.eq_of_getLsbD_eq
  intro i hi
  simp only [encode, tableRow, BitVec.getLsbD_and, encodeS_bit]
  interval_cases i <;> simp

theorem decIndex (view : View) (slot : BitVec 8) : Statement (.decIndex view slot) := by
  apply BitVec.eq_of_getLsbD_eq
  intro i hi
  simp only [encode, tableRow, BitVec.getLsbD_and, encodeS_bit]
  interval_cases i <;> simp

theorem encIndex (view : View) (slot : BitVec 8) : Statement (.encIndex view slot) := by
  apply BitVec.eq_of_getLsbD_eq
  intro i hi
  simp only [encode, tableRow, BitVec.getLsbD_and, encodeS_bit]
  interval_cases i <;> simp

theorem decKeyed (view : View) (slot : BitVec 8) : Statement (.decKeyed view slot) := by
  apply BitVec.eq_of_getLsbD_eq
  intro i hi
  simp only [encode, tableRow, BitVec.getLsbD_and, encodeS_bit]
  interval_cases i <;> simp

theorem encKeyed (view : View) (slot : BitVec 8) : Statement (.encKeyed view slot) := by
  apply BitVec.eq_of_getLsbD_eq
  intro i hi
  simp only [encode, tableRow, BitVec.getLsbD_and, encodeS_bit]
  interval_cases i <;> simp

theorem decCustom (view : View) (slot : BitVec 8) : Statement (.decCustom view slot) := by
  apply BitVec.eq_of_getLsbD_eq
  intro i hi
  simp only [encode, tableRow, BitVec.getLsbD_and, encodeS_bit]
  interval_cases i <;> simp

theorem encCustom (view : View) (slot : BitVec 8) : Statement (.encCustom view slot) := by
  apply BitVec.eq_of_getLsbD_eq
  intro i hi
  simp only [encode, tableRow, BitVec.getLsbD_and, encodeS_bit]
  interval_cases i <;> simp

theorem slotNotify (slot : BitVec 8) : Statement (.slotNotify slot) := by
  apply BitVec.eq_of_getLsbD_eq
  intro i hi
  simp only [encode, tableRow, BitVec.getLsbD_and, encodeS_bit]
  interval_cases i <;> simp [viewBits]

theorem slotWrite (slot : BitVec 8) : Statement (.slotWrite slot) := by
  apply BitVec.eq_of_getLsbD_eq
  intro i hi
  simp only [encode, tableRow, BitVec.getLsbD_and, encodeS_bit]
  interval_cases i <;> simp [viewBits]

theorem parse : Statement .parse := rfl

theorem ckGen : Statement .ckGen := rfl

theorem ckChk (view : View) : Statement (.ckChk view) := by
  apply BitVec.eq_of_getLsbD_eq
  intro i hi
  simp only [encode, tableRow, BitVec.getLsbD_and, encodeVT_bit]
  interval_cases i <;> simp

theorem serInit : Statement .serInit := rfl

theorem serStd : Statement .serStd := rfl

theorem serExt : Statement .serExt := rfl

theorem serCmd : Statement .serCmd := rfl

theorem txSend : Statement .txSend := rfl

theorem txnStartInt : Statement .txnStartInt := rfl

theorem txnStartExt : Statement .txnStartExt := rfl

theorem txnStop : Statement .txnStop := rfl

theorem dispatch : Statement .dispatch := rfl

theorem rxPri : Statement .rxPri := rfl

theorem rxExt : Statement .rxExt := rfl

theorem flush : Statement .flush := rfl

theorem rdStatus (sel : StatusSel) : Statement (.rdStatus sel) := by
  apply BitVec.eq_of_getLsbD_eq
  intro i hi
  simp only [encode, tableRow, BitVec.getLsbD_and, encodeVT_bit]
  interval_cases i <;> simp

theorem evLoop : Statement .evLoop := rfl

theorem evUpdate : Statement .evUpdate := rfl

theorem evTimeout : Statement .evTimeout := rfl

theorem evSettle : Statement .evSettle := rfl

theorem evPstart : Statement .evPstart := rfl

theorem frameTxInit (dir : Byte) : Statement (.frameTxInit dir) := by
  apply BitVec.eq_of_getLsbD_eq
  intro i hi
  simp only [encode, tableRow, BitVec.getLsbD_and, encodeHeader_bit]
  interval_cases i <;> simp

theorem frameTxStdPoll (dir : Byte) : Statement (.frameTxStdPoll dir) := by
  apply BitVec.eq_of_getLsbD_eq
  intro i hi
  simp only [encode, tableRow, BitVec.getLsbD_and, encodeHeader_bit]
  interval_cases i <;> simp

theorem frameTxExtPoll (dir : Byte) : Statement (.frameTxExtPoll dir) := by
  apply BitVec.eq_of_getLsbD_eq
  intro i hi
  simp only [encode, tableRow, BitVec.getLsbD_and, encodeHeader_bit]
  interval_cases i <;> simp

theorem frameTxCmd (dir cat : Byte) : Statement (.frameTxCmd dir cat) := by
  apply BitVec.eq_of_getLsbD_eq
  intro i hi
  simp only [encode, tableRow, BitVec.getLsbD_and, encodeHeader_bit]
  interval_cases i <;> simp

theorem frameRxPrePoll (len dir cat : Byte) : Statement (.frameRxPrePoll len dir cat) := by
  apply BitVec.eq_of_getLsbD_eq
  intro i hi
  simp only [encode, tableRow, BitVec.getLsbD_and, encodeHeader_bit]
  interval_cases i <;> simp

theorem frameRxPreCmd (len dir cat : Byte) : Statement (.frameRxPreCmd len dir cat) := by
  apply BitVec.eq_of_getLsbD_eq
  intro i hi
  simp only [encode, tableRow, BitVec.getLsbD_and, encodeHeader_bit]
  interval_cases i <;> simp

theorem frameRxPreInit (len dir cat : Byte) : Statement (.frameRxPreInit len dir cat) := by
  apply BitVec.eq_of_getLsbD_eq
  intro i hi
  simp only [encode, tableRow, BitVec.getLsbD_and, encodeHeader_bit]
  interval_cases i <;> simp

theorem frameRxCatInit (pre len dir : Byte) : Statement (.frameRxCatInit pre len dir) := by
  apply BitVec.eq_of_getLsbD_eq
  intro i hi
  simp only [encode, tableRow, BitVec.getLsbD_and, encodeHeader_bit]
  interval_cases i <;> simp

theorem frameRxCatStd (pre len dir : Byte) : Statement (.frameRxCatStd pre len dir) := by
  apply BitVec.eq_of_getLsbD_eq
  intro i hi
  simp only [encode, tableRow, BitVec.getLsbD_and, encodeHeader_bit]
  interval_cases i <;> simp

theorem frameRxCatExtra (pre len dir : Byte) : Statement (.frameRxCatExtra pre len dir) := by
  apply BitVec.eq_of_getLsbD_eq
  intro i hi
  simp only [encode, tableRow, BitVec.getLsbD_and, encodeHeader_bit]
  interval_cases i <;> simp

end TableRow

end Sys2Proof.Laws
end

