-- ==== Sys2Proof/Machine/Assembly.lean ====
section
/-! DEFINITION. The assembler's form of a command (30_encoding.md R114) and the pseudo-instructions (R115). They are
notation for programs: no step reads them. -/

namespace Sys2Proof.Machine

/-- `Vn` (R114). -/
def viewText : View → String
  | .v0 => "V0"
  | .v1 => "V1"
  | .v2 => "V2"
  | .v3 => "V3"

/-- `SEL` of RD.STATUS (R114). -/
def selText : StatusSel → String
  | .status => "0"
  | .pollCount => "1"
  | .lengths => "2"
  | .faultInfo => "3"

/-- Operands "separated by commas" (R114). -/
def operandText (operands : List String) : String := String.intercalate ", " operands

/-- A number of a field, in decimal (R114). -/
def fieldText {w : Nat} (b : BitVec w) : String := toString b.toNat

/-- Format B: "`BIT` left out where it is 0" (R114). -/
def bitFieldText (v : View) (off : BitVec 9) (bit : BitVec 4) (w : BitVec 6) : String :=
  if bit = 0 then operandText [viewText v, fieldText off, fieldText w]
  else operandText [viewText v, fieldText off, fieldText bit, fieldText w]

/-- Format S with a view (R114). -/
def slotText (v : View) (slot : BitVec 8) : String := operandText [viewText v, fieldText slot]

/-- The line of a command without its data operand: "the mnemonic with `_` written as `.`", then its operands (R114). A
frame header row is no command and has no line. -/
def assemblerLine : Instr → Option String
  | .nop => some "NOP"
  | .rbSize => some "RB.SIZE"
  | .rbPush cnt => some ("RB.PUSH " ++ fieldText cnt)
  | .rbPeek cnt => some ("RB.PEEK " ++ fieldText cnt)
  | .rbPop => some "RB.POP"
  | .rbDiscardUntil mrk => some ("RB.DISCARD_UNTIL " ++ fieldText mrk)
  | .rdBits v off bit w => some ("RD.BITS " ++ bitFieldText v off bit w)
  | .wrBits v off bit w => some ("WR.BITS " ++ bitFieldText v off bit w)
  | .rdBytes v off w => some ("RD.BYTES " ++ bitFieldText v off 0 w)
  | .wrBytes v off w => some ("WR.BYTES " ++ bitFieldText v off 0 w)
  | .rdArray v off w => some ("RD.ARRAY " ++ bitFieldText v off 0 w)
  | .wrArray v off w => some ("WR.ARRAY " ++ bitFieldText v off 0 w)
  | .decTri v slot => some ("DEC.TRI " ++ slotText v slot)
  | .encTri v slot => some ("ENC.TRI " ++ slotText v slot)
  | .decScaled v slot => some ("DEC.SCALED " ++ slotText v slot)
  | .encScaled v slot => some ("ENC.SCALED " ++ slotText v slot)
  | .decIndex v slot => some ("DEC.INDEX " ++ slotText v slot)
  | .encIndex v slot => some ("ENC.INDEX " ++ slotText v slot)
  | .decKeyed v slot => some ("DEC.KEYED " ++ slotText v slot)
  | .encKeyed v slot => some ("ENC.KEYED " ++ slotText v slot)
  | .decCustom v slot => some ("DEC.CUSTOM " ++ slotText v slot)
  | .encCustom v slot => some ("ENC.CUSTOM " ++ slotText v slot)
  | .slotNotify slot => some ("SLOT.NOTIFY " ++ fieldText slot)
  | .slotWrite slot => some ("SLOT.WRITE " ++ fieldText slot)
  | .parse => some "PARSE"
  | .ckGen => some "CK.GEN"
  | .ckChk v => some ("CK.CHK " ++ viewText v)
  | .serInit => some "SER.INIT"
  | .serStd => some "SER.STD"
  | .serExt => some "SER.EXT"
  | .serCmd => some "SER.CMD"
  | .txSend => some "TX.SEND"
  | .txnStartInt => some "TXN.START_INT"
  | .txnStartExt => some "TXN.START_EXT"
  | .txnStop => some "TXN.STOP"
  | .dispatch => some "DISPATCH"
  | .rxPri => some "RX.PRI"
  | .rxExt => some "RX.EXT"
  | .flush => some "FLUSH"
  | .rdStatus sel => some ("RD.STATUS " ++ selText sel)
  | .evLoop => some "EV.LOOP"
  | .evUpdate => some "EV.UPDATE"
  | .evTimeout => some "EV.TIMEOUT"
  | .evSettle => some "EV.SETTLE"
  | .evPstart => some "EV.PSTART"
  | .frameTxInit _ => none
  | .frameTxStdPoll _ => none
  | .frameTxExtPoll _ => none
  | .frameTxCmd _ _ => none
  | .frameRxPrePoll _ _ _ => none
  | .frameRxPreCmd _ _ _ => none
  | .frameRxPreInit _ _ _ => none
  | .frameRxCatInit _ _ _ => none
  | .frameRxCatStd _ _ _ => none
  | .frameRxCatExtra _ _ _ => none

/-- A value after `<-` (R18, R114). -/
def valueText : Value → String
  | .bool b => "Bool(" ++ toString b ++ ")"
  | .num q =>
    if q.den = 1 then "Num(" ++ toString q.num ++ ")"
    else "Num(" ++ toString q.num ++ "/" ++ toString q.den ++ ")"
  | .str t => "Str(\"" ++ t ++ "\")"
  | .undef => "Undef"

/-- The optional data operand after `<-` (R114). -/
def dataText : Data → String
  | .empty => ""
  | .nat n => " <- " ++ toString n
  | .bytes B => " <- [" ++ operandText (B.map fieldText) ++ "]"
  | .value v => " <- " ++ valueText v

/-- The pseudo-instructions (R115). -/
inductive Pseudo where
  /-- `SEND.INIT` -/
  | sendInit
  /-- `SEND.STD` -/
  | sendStd
  /-- `SEND.EXT` -/
  | sendExt
  /-- `RD.U8 Vn, OFF` -/
  | rdU8 (view : View) (off : BitVec 9)
  /-- `RD.U16 Vn, OFF` -/
  | rdU16 (view : View) (off : BitVec 9)
  /-- `RD.U32 Vn, OFF` -/
  | rdU32 (view : View) (off : BitVec 9)
  /-- `RD.BIT Vn, OFF, BIT` -/
  | rdBit (view : View) (off : BitVec 9) (bit : BitVec 4)
  /-- `TICK` -/
  | tick
deriving DecidableEq, Repr

/-- The commands a pseudo-instruction stands for, in order (R115). -/
def expandPseudo : Pseudo → List Instr
  | .sendInit => [.serInit, .txSend]
  | .sendStd => [.serStd, .txSend]
  | .sendExt => [.serExt, .txSend]
  | .rdU8 v off => [.rdBytes v off 1]
  | .rdU16 v off => [.rdBytes v off 2]
  | .rdU32 v off => [.rdBytes v off 4]
  | .rdBit v off bit => [.rdBits v off bit 1]
  | .tick => [.evLoop]

end Sys2Proof.Machine
end

