-- ==== Sys2Proof/Tests/Slice0.lean ====
section
/-! SUPPORT. The smoke tests of the checks, the decode tests, one step of every instruction on the vectors of
95_test_vectors.md (A-... names a vector), and for each statement that has hypotheses a witness that meets them. -/

namespace Sys2Proof.Tests

open Sys2Proof.Machine

set_option Elab.async false

/-! ### Helpers -/

/-- The response of one instruction. -/
def answer (i : Instr) (s : State) : Option Response :=
  match exec i s with
  | .next t => t.resp
  | .fault _ | .refused _ => none

/-- What one instruction leaves. -/
def left (i : Instr) (s : State) : State :=
  match exec i s with
  | .next t => t
  | .fault _ | .refused _ => s

/-- Reset with an operand on the data port. -/
def given (d : Data) : State := { State.reset with data := d }

/-- Reset with bytes in the ring buffer. -/
def holding (q : List Byte) : State := { State.reset with rbQ := q }

/-- Reset with bytes at the start of PCB and an operand. -/
def pending (B : List Byte) (d : Data) : State := { State.reset with pcb := Memory.writeAll [] 0 B, data := d }

/-- Reset with a received frame in FB. -/
def received (F : List Byte) (c : FrameClass) : State :=
  { State.reset with fb := Memory.writeAll [] 0 F, fbLen := F.length, fbCat := c }

/-- A short standard frame: header, 11 data bytes, and a checksum byte (byte values of RSP1's data). -/
def shortStd : List Byte :=
  [0x71, 0x0D, 0x02, 0x10, 0x90, 0x64, 0x00, 0x04, 0x00, 0x00, 0x02, 0x03, 0x00, 0x00, 0x00, 0x73]

/-- A short extra frame with RSP2's data bytes. -/
def shortExtra : List Byte := [0x71, 0x0B, 0x02, 0x21, 0x00, 0x00, 0x00, 0x00, 0xC1, 0x2F, 0x00, 0x00, 0x80, 0xF1]

/-- `UNK`, `INITR` and `SH` of section 1. -/
def unk : List Byte := [0x71, 0x06, 0x02, 0x55, 0x00, 0x00, 0x00, 0x00, 0x32]
def initr : List Byte := [0x31, 0x08, 0x02, 0x01, 0x00, 0x00, 0x00, 0x00, 0x00, 0x00, 0xC4]
def sh : List Byte := [0xF1, 0x06, 0x02, 0x10, 0xAA, 0xAA, 0xAA, 0xAA, 0x4F]

/-- VC with an external controller. -/
def vcExt : Config := { Config.vc with extConfigured := true }

/-- VC with slot 2's table too long for its width (A-FA-6). -/
def badIndex : Config :=
  { Config.vc with
    slots := Config.vcSlots.set 2 ⟨3, 5, 3, .index ["a", "b", "c", "d", "e", "f", "g", "h"], .std, .rw⟩ }

/-- Reset under VC with an external controller, bytes waiting on EXT, and a transaction state. -/
def external (k : TxnState) (B : List Byte) : State :=
  { State.resetWith vcExt with txnState := k, txnTmr := k != .idle, extRx := B }

/-- Reset with a transaction open. -/
def opened (k : TxnState) : State := { State.reset with txnState := k, txnTmr := true }

/-! ### Well-formedness refuses what the encoding does not admit (log 9) -/

theorem test_wf_refuses_pre_poll_cat_init : (Instr.frameRxPrePoll 0x08 0x02 0x01).wf = false := by decide
theorem test_wf_refuses_pre_cmd_cat_std : (Instr.frameRxPreCmd 0x06 0x02 0x10).wf = false := by decide
theorem test_wf_refuses_pre_init_cat_extra : (Instr.frameRxPreInit 0x08 0x02 0x21).wf = false := by decide
theorem test_wf_takes_other_category : (Instr.frameRxPrePoll 0x06 0x02 0x55).wf = true := by decide

/-! ### Decoding: words written out from R102, R111 and R127; those of section 3.1 where it has one -/

theorem test_decode_nop : decodeTableWord 32 0x00000000 = some (.nop) := by decide
theorem test_decode_rbSize : decodeTableWord 32 0x01000000 = some (.rbSize) := by decide
theorem test_decode_rbPush : decodeTableWord 32 0x02190000 = some (.rbPush 50) := by decide
theorem test_decode_rbPeek : decodeTableWord 32 0x03008000 = some (.rbPeek 1) := by decide
theorem test_decode_rbPop : decodeTableWord 32 0x04000000 = some (.rbPop) := by decide
theorem test_decode_rbDiscardUntil : decodeTableWord 32 0x05003880 = some (.rbDiscardUntil 0x71) := by decide
theorem test_decode_rdBits : decodeTableWord 32 0x10C06240 = some (.rdBits .v3 3 1 8) := by decide
theorem test_decode_wrBits : decodeTableWord 32 0x11400610 = some (.wrBits .v1 0 3 2) := by decide
theorem test_decode_rdBytes : decodeTableWord 32 0x12414010 = some (.rdBytes .v1 10 2) := by decide
theorem test_decode_wrBytes : decodeTableWord 32 0x13414010 = some (.wrBytes .v1 10 2) := by decide
theorem test_decode_rdArray : decodeTableWord 32 0x14400018 = some (.rdArray .v1 0 3) := by decide
theorem test_decode_wrArray : decodeTableWord 32 0x15400010 = some (.wrArray .v1 0 2) := by decide
theorem test_decode_decTri : decodeTableWord 32 0x20004000 = some (.decTri .v0 1) := by decide
theorem test_decode_encTri : decodeTableWord 32 0x21400000 = some (.encTri .v1 0) := by decide
theorem test_decode_decScaled : decodeTableWord 32 0x22004000 = some (.decScaled .v0 1) := by decide
theorem test_decode_encScaled : decodeTableWord 32 0x23404000 = some (.encScaled .v1 1) := by decide
theorem test_decode_decIndex : decodeTableWord 32 0x24008000 = some (.decIndex .v0 2) := by decide
theorem test_decode_encIndex : decodeTableWord 32 0x25408000 = some (.encIndex .v1 2) := by decide
theorem test_decode_decKeyed : decodeTableWord 32 0x2600C000 = some (.decKeyed .v0 3) := by decide
theorem test_decode_encKeyed : decodeTableWord 32 0x2740C000 = some (.encKeyed .v1 3) := by decide
theorem test_decode_decCustom : decodeTableWord 32 0x28010000 = some (.decCustom .v0 4) := by decide
theorem test_decode_encCustom : decodeTableWord 32 0x29410000 = some (.encCustom .v1 4) := by decide
theorem test_decode_slotNotify : decodeTableWord 32 0x2A000000 = some (.slotNotify 0) := by decide
theorem test_decode_slotWrite : decodeTableWord 32 0x2B00C000 = some (.slotWrite 3) := by decide
theorem test_decode_parse : decodeTableWord 32 0x40000000 = some (.parse) := by decide
theorem test_decode_ckGen : decodeTableWord 32 0x41000000 = some (.ckGen) := by decide
theorem test_decode_ckChk : decodeTableWord 32 0x42C00000 = some (.ckChk .v3) := by decide
theorem test_decode_serInit : decodeTableWord 32 0x43000000 = some (.serInit) := by decide
theorem test_decode_serStd : decodeTableWord 32 0x44000000 = some (.serStd) := by decide
theorem test_decode_serExt : decodeTableWord 32 0x45000000 = some (.serExt) := by decide
theorem test_decode_serCmd : decodeTableWord 32 0x46000000 = some (.serCmd) := by decide
theorem test_decode_txSend : decodeTableWord 32 0x47000000 = some (.txSend) := by decide
theorem test_decode_txnStartInt : decodeTableWord 32 0x50000000 = some (.txnStartInt) := by decide
theorem test_decode_txnStartExt : decodeTableWord 32 0x51000000 = some (.txnStartExt) := by decide
theorem test_decode_txnStop : decodeTableWord 32 0x52000000 = some (.txnStop) := by decide
theorem test_decode_dispatch : decodeTableWord 32 0x53000000 = some (.dispatch) := by decide
theorem test_decode_rxPri : decodeTableWord 32 0x54000000 = some (.rxPri) := by decide
theorem test_decode_rxExt : decodeTableWord 32 0x55000000 = some (.rxExt) := by decide
theorem test_decode_flush : decodeTableWord 32 0x56000000 = some (.flush) := by decide
theorem test_decode_rdStatus : decodeTableWord 32 0x5F800000 = some (.rdStatus .lengths) := by decide
theorem test_decode_evLoop : decodeTableWord 32 0x60000000 = some (.evLoop) := by decide
theorem test_decode_evUpdate : decodeTableWord 32 0x61000000 = some (.evUpdate) := by decide
theorem test_decode_evTimeout : decodeTableWord 32 0x62000000 = some (.evTimeout) := by decide
theorem test_decode_evSettle : decodeTableWord 32 0x63000000 = some (.evSettle) := by decide
theorem test_decode_evPstart : decodeTableWord 32 0x64000000 = some (.evPstart) := by decide
theorem test_decode_frameTxInit : decodeTableWord 32 0x31080101 = some (.frameTxInit 0x01) := by decide
theorem test_decode_frameTxStdPoll : decodeTableWord 32 0x716F0110 = some (.frameTxStdPoll 0x01) := by decide
theorem test_decode_frameTxExtPoll : decodeTableWord 32 0x716F0121 = some (.frameTxExtPoll 0x01) := by decide
theorem test_decode_frameTxCmd : decodeTableWord 32 0xF16F0110 = some (.frameTxCmd 0x01 0x10) := by decide
theorem test_decode_frameRxPrePoll : (decodeRxHeader 0x71060255).toOption = some (.frameRxPrePoll 0x06 0x02 0x55) := by
  decide
theorem test_decode_frameRxPreCmd : (decodeRxHeader 0xF1060255).toOption = some (.frameRxPreCmd 0x06 0x02 0x55) := by
  decide
theorem test_decode_frameRxPreInit : (decodeRxHeader 0x31060255).toOption = some (.frameRxPreInit 0x06 0x02 0x55) := by
  decide
theorem test_decode_frameRxCatInit : (decodeRxHeader 0x31080201).toOption = some (.frameRxCatInit 0x31 0x08 0x02) := by
  decide
theorem test_decode_frameRxCatStd : (decodeRxHeader 0x716F0210).toOption = some (.frameRxCatStd 0x71 0x6F 0x02) := by
  decide
theorem test_decode_frameRxCatExtra : (decodeRxHeader 0x716F0221).toOption = some (.frameRxCatExtra 0x71 0x6F 0x02) := by
  decide
/-- A word of a received header that no row before it matches. -/
theorem test_decode_table_rx : [0xF1060210, 0x00000001, 0x31000000, 0x71060255].map (decodeTableWord 32) =
    [some (.frameRxCatStd 0xF1 0x06 0x02), some (.frameRxCatInit 0 0 0), some (.frameRxPreInit 0 0 0),
      some (.frameRxPrePoll 0x06 0x02 0x55)] := by decide

/-- A-ILL-1, 2, 4 to 7: a reserved opcode, a reserved bit, a field that must be 0. -/
theorem test_decode_illegal :
    [0x06000000#32, 0x02010080, 0x00000001, 0x12400220, 0x2A400000, 0x5F000001, 0xFF000000].map
    (fun w => (decodeCommand w).toOption) = [none, none, none, none, none, none, none] := by decide

/-- Every field of a word is read from its own place: all bits of one field set, the others clear. -/
theorem test_decode_fields :
    (decodeCommand 0x10C00000).toOption = some (.rdBits .v3 0 0 0) ∧
    (decodeCommand 0x103FE000).toOption = some (.rdBits .v0 511 0 0) ∧
    (decodeCommand 0x10001E00).toOption = some (.rdBits .v0 0 15 0) ∧
    (decodeCommand 0x100001F8).toOption = some (.rdBits .v0 0 0 63) ∧
    (decodeCommand 0x03FF8000).toOption = some (.rbPeek 511) ∧
    (decodeCommand 0x05007F80).toOption = some (.rbDiscardUntil 0xFF) ∧
    (decodeCommand 0x203FC000).toOption = some (.decTri .v0 255) := by decide

/-! ### One step of every instruction -/

/-- The word that `withFetchWord` presents is the next step's instruction. -/
theorem test_step_runs_the_presented_word :
    (match step (State.reset.withFetchWord 32 0x50000000) with
      | .next t => t.txnState
      | .fault _ | .refused _ => .idle) = .internal := by decide

/-- R313. -/
theorem test_nop : answer .nop State.reset = some ⟨.ok, .empty⟩ := by decide +kernel
/-- A-RB-10 the full buffer counts. -/
theorem test_rbSize : answer .rbSize (holding (List.replicate 512 0xAA)) = some ⟨.ok, .word 512⟩ := by decide +kernel
/-- A-RB-10. -/
theorem test_rbPush_fits :
    (left (.rbPush 1) { given (.bytes [0xAA]) with rbQ := List.replicate 511 0 }).rbQ.length = 512 := by
  decide +kernel
/-- A-RB-11. -/
theorem test_rbPush_overflows :
    answer (.rbPush 2) { given (.bytes [0xAA, 0xBB]) with rbQ := List.replicate 511 0 } = some ⟨.fault, .byte 0x02⟩ := by
  decide +kernel
/-- A-RB-3. -/
theorem test_rbPeek : answer (.rbPeek 1) (holding [0x71, 0x6F, 0x01]) = some ⟨.ok, .byte 0x6F⟩ := by decide +kernel
/-- A-RB-4. -/
theorem test_rbPeek_past : (left (.rbPeek 3) (holding [0x71, 0x6F, 0x01])).faultCode = 0x04 ∧
    (left (.rbPeek 3) (holding [0x71, 0x6F, 0x01])).faultInfo = 3 := by decide +kernel
/-- A-RB-5. -/
theorem test_rbPop : answer .rbPop (holding [0x00, 0x71]) = some ⟨.ok, .byte 0x00⟩ ∧
    (left .rbPop (holding [0x00, 0x71])).rbQ = [0x71] := by decide +kernel
/-- A-RB-6 and A-FA-1: STATUS 0x00030428. -/
theorem test_rbPop_empty : (left .rbPop State.reset).statusWord = 0x00030428 := by decide +kernel
/-- A-RB-7. -/
theorem test_rbDiscardUntil : answer (.rbDiscardUntil 0x71) (holding [0x00, 0x12, 0x71, 0x6F]) = some ⟨.ok, .word 2⟩ ∧
    (left (.rbDiscardUntil 0x71) (holding [0x00, 0x12, 0x71, 0x6F])).rbQ = [0x71, 0x6F] := by decide +kernel
/-- A-BIT-1. -/
theorem test_rdBits : answer (.rdBits .v1 0 1 2) (pending [0x40] .empty) = some ⟨.ok, .word 1⟩ := by decide +kernel
/-- A-BIT-5: FAULT_INFO is the word. -/
theorem test_rdBits_shape : (left (.rdBits .v1 0 8 2) State.reset).faultInfo = 0x10401010 := by decide +kernel
/-- A-BIT-2. -/
theorem test_wrBits : (left (.wrBits .v1 0 3 2) (pending [0x40] (.nat 2))).pcb.read 0 = 0x60 := by decide +kernel
/-- A-BIT-15: VIEW_RO first. -/
theorem test_wrBits_readOnly : (left (.wrBits .v0 0 8 2) (given (.nat 9))).faultCode = 0x0D := by decide +kernel
/-- A-BIT-8. -/
theorem test_rdBytes :
    answer (.rdBytes .v1 10 2) { State.reset with pcb := [(10, 0x34), (11, 0x12)] } = some ⟨.ok, .word 0x1234⟩ := by
  decide +kernel
/-- A-BIT-12. -/
theorem test_rdBytes_past : (left (.rdBytes .v1 108 2) State.reset).faultCode = 0x05 ∧
    (left (.rdBytes .v1 108 2) State.reset).faultInfo = 108 := by decide +kernel
/-- A-BIT-9. -/
theorem test_wrBytes :
    (left (.wrBytes .v1 10 2) (given (.nat 0x1234))).pcb = [(10, 0x34), (11, 0x12)] := by decide +kernel
/-- A-BIT-10. -/
theorem test_wrBytes_range :
    answer (.wrBytes .v1 10 2) (given (.nat 0x10000)) = some ⟨.fault, .byte 0x07⟩ := by decide +kernel
/-- A-BIT-13. -/
theorem test_rdArray :
    answer (.rdArray .v1 0 3) (pending [1, 2, 3] .empty) = some ⟨.ok, .bytes [1, 2, 3]⟩ := by decide +kernel
/-- A-BIT-14. -/
theorem test_wrArray :
    (left (.wrArray .v1 0 2) (given (.bytes [0xAA, 0x55]))).pcb = [(0, 0xAA), (1, 0x55)] := by decide +kernel
/-- A-TRI-5: byte 0 = DF. -/
theorem test_decTri_false :
    answer (.decTri .v1 0) (pending [0xDF] .empty) = some ⟨.ok, .value (.bool false)⟩ := by decide +kernel
/-- A-TRI-11. -/
theorem test_decTri_kind : answer (.decTri .v0 1) State.reset = some ⟨.fault, .byte 0x0A⟩ := by decide +kernel
/-- A-TRI-7. -/
theorem test_encTri :
    (left (.encTri .v1 0) (pending [0xFF] (.value (.bool false)))).pcb.read 0 = 0xDF := by decide +kernel
/-- A-TRI-9. -/
theorem test_encTri_wrong_value :
    answer (.encTri .v1 0) (given (.value (.num 1))) = some ⟨.fault, .byte 0x07⟩ := by decide +kernel
/-- A-SC-2. -/
theorem test_decScaled :
    answer (.decScaled .v1 1) (pending [0x00, 0x64, 0x00] .empty) = some ⟨.ok, .value (.num 30)⟩ := by decide +kernel
/-- A-SC-3. -/
theorem test_decScaled_unsigned :
    answer (.decScaled .v1 1) (pending [0x00, 0xFF, 0xFF] .empty) = some ⟨.ok, .value (.num (65495 / 2))⟩ := by
  decide +kernel
/-- A-SC-6: toward zero. -/
theorem test_encScaled_truncates :
    answer (.encScaled .v1 1) (given (.value (.num (-81 / 4)))) = some ⟨.ok, .empty⟩ := by decide +kernel
/-- A-SC-9. -/
theorem test_encScaled_range :
    answer (.encScaled .v1 1) (given (.value (.num 32748))) = some ⟨.fault, .byte 0x08⟩ := by decide +kernel
/-- A-IX-3. -/
theorem test_decIndex :
    answer (.decIndex .v1 2) (pending [0, 0, 0, 0xF5] .empty) = some ⟨.ok, .value (.str "Cool")⟩ := by decide +kernel
/-- A-IX-5. -/
theorem test_decIndex_range :
    (left (.decIndex .v1 2) (pending [0, 0, 0, 0xF9] .empty)).events = [.log .warning .wIndexRange] := by
  decide +kernel
/-- A-IX-6. -/
theorem test_encIndex :
    (left (.encIndex .v1 2) (pending [0, 0, 0, 0xFF] (.value (.str "Heat")))).pcb.read 3 = 0xF3 := by decide +kernel
/-- A-IX-7. -/
theorem test_encIndex_unknown :
    answer (.encIndex .v1 2) (pending [0, 0, 0, 0xF3] (.value (.str "Dry"))) = some ⟨.noEffect, .empty⟩ := by
  decide +kernel
/-- A-KY-1. -/
theorem test_decKeyed :
    answer (.decKeyed .v1 3) (pending [0, 0, 0, 0, 0xC1, 0x2F] .empty) = some ⟨.ok, .value (.str "Eco")⟩ := by
  decide +kernel
/-- A-KY-3. -/
theorem test_decKeyed_unknown :
    answer (.decKeyed .v1 3) (pending [0, 0, 0, 0, 0xFF, 0xFF] .empty) = some ⟨.ok, .value .undef⟩ := by
  decide +kernel
/-- A-KY-5. -/
theorem test_encKeyed :
    ((left (.encKeyed .v1 3) (pending [0, 0, 0, 0, 0xFF, 0xFF] (.value (.str "Boost")))).view .v1).take 6 =
    [0, 0, 0, 0, 0xC2, 0x0F] := by decide +kernel
/-- A-KY-7. -/
theorem test_encKeyed_undef :
    answer (.encKeyed .v1 3) (given (.value .undef)) = some ⟨.noEffect, .empty⟩ := by decide +kernel
/-- A-CU-1. -/
theorem test_decCustom :
    answer (.decCustom .v1 4) (pending [0, 0, 0, 0, 0, 0, 2, 3] .empty) = some ⟨.ok, .value (.num 5)⟩ := by
  decide +kernel
/-- A-CU-3. -/
theorem test_encCustom :
    answer (.encCustom .v1 4) (given (.value (.num 5))) = some ⟨.noEffect, .empty⟩ := by decide +kernel
/-- A-SL-1. -/
theorem test_slotNotify :
    (left (.slotNotify 0) (received shortStd .std)).events = [.publish 0 (.bool false)] := by decide +kernel
/-- A-SL-2. -/
theorem test_slotNotify_again :
    answer (.slotNotify 0) (left (.slotNotify 0) (received shortStd .std)) = some ⟨.ok, .bool false⟩ := by
  decide +kernel
/-- A-SL-6. -/
theorem test_slotWrite : (left (.slotWrite 0) (given (.value (.bool true)))).pcb = [(0, 0x20)] ∧
    (left (.slotWrite 0) (given (.value (.bool true)))).dirty = true := by decide +kernel
/-- A-SL-7: DIRTY even so. -/
theorem test_slotWrite_no_effect :
    (left (.slotWrite 2) (given (.value (.str "Dry")))).dirty = true := by decide +kernel
/-- A-PA-3. -/
theorem test_parse :
    answer .parse (holding ([0x00, 0x12, 0xAB] ++ unk)) = some ⟨.ok, .cls .unknown⟩ := by decide +kernel
/-- A-PA-4. -/
theorem test_parse_bad_length :
    answer .parse (holding [0x71, 0x05, 0x01, 0x10, 0x00, 0x84, 0x71]) = some ⟨.badLength, .empty⟩ ∧
    (left .parse (holding [0x71, 0x05, 0x01, 0x10, 0x00, 0x84, 0x71])).rbQ = [0x84, 0x71] := by decide +kernel
/-- A-CK-2 on the handshake of A-SE-1: 1 more in a data byte, 1 less in the checksum. -/
theorem test_ckGen :
    answer .ckGen
    { left (.wrBits .v2 4 1 8) { left .serInit State.reset with data := .nat 1 } with data := .empty } = some ⟨.ok, .byte 0xC4⟩ := by
  decide +kernel
/-- A-CK-1. -/
theorem test_ckGen_reset : answer .ckGen State.reset = some ⟨.fault, .byte 0x05⟩ := by decide +kernel
/-- A-CK-3. -/
theorem test_ckChk : answer (.ckChk .v2) (left .serInit State.reset) = some ⟨.ok, .byte 0x00⟩ := by decide +kernel
/-- A-SE-1. -/
theorem test_serInit :
    (left .serInit State.reset).view .v2 = [0x31, 0x08, 0x01, 0x01, 0, 0, 0, 0, 0, 0, 0xC5] := by decide +kernel
/-- A-SE-2. -/
theorem test_serStd :
    (left .serStd State.reset).view .v2 = [0x71, 0x6F, 0x01, 0x10] ++ List.replicate 109 0 ++ [0x0F] := by
  decide +kernel
/-- A-SE-3. -/
theorem test_serExt :
    (left .serExt State.reset).view .v2 = [0x71, 0x6F, 0x01, 0x21] ++ List.replicate 109 0 ++ [0xFE] := by
  decide +kernel
/-- A-SE-5. -/
theorem test_serCmd : (left .serCmd (pending [0x20, 0x64, 0x00, 0x06] .empty)).view .v2 =
    [0xF1, 0x6F, 0x01, 0x10, 0x20, 0x64, 0x00, 0x06] ++ List.replicate 105 0 ++ [0x05] := by decide +kernel
/-- A-SE-7. -/
theorem test_txSend :
    (left .txSend (left .serInit State.reset)).priTx = [0x31, 0x08, 0x01, 0x01, 0, 0, 0, 0, 0, 0, 0xC5] := by
  decide +kernel
/-- A-SE-6. -/
theorem test_txSend_reset : answer .txSend State.reset = some ⟨.noEffect, .empty⟩ := by decide +kernel
/-- A-TX-1. -/
theorem test_txnStartInt : (left .txnStartInt State.reset).statusWord = 0x0000002D := by decide +kernel
/-- A-TX-2. -/
theorem test_txnStartInt_busy :
    answer .txnStartInt (opened .internal) = some ⟨.busy, .bool false⟩ := by decide +kernel
/-- A-TX-4. -/
theorem test_txnStartExt : (left .txnStartExt State.reset).statusWord = 0x000000AE := by decide +kernel
/-- A-TX-3. -/
theorem test_txnStartExt_busy : (left .txnStartExt (opened .internal)).statusWord = 0x0000002D := by decide +kernel
/-- A-TX-5. -/
theorem test_txnStop : (left .txnStop (opened .internal)).statusWord = 0x00000028 := by decide +kernel
/-- A-DISP-1: the cells; EXTRA_SUP. -/
theorem test_dispatch : (left .dispatch (received shortStd .std)).dedup =
    [some (.bool false), some (.num 30), some (.str "Cool"), none, some (.num 5), none, none] ∧
    (left .dispatch (received shortStd .std)).extraSup = true := by decide +kernel
/-- R6, R10: field position 1 is the most significant bit; the positions 0 and 9 are the model's choice (log 13). -/
theorem test_supportShown :
    [1, 2, 8, 0, 9].map (fun p => supportShown (.dataBit 0 p) [0x81]) = [true, false, true, false, false] := by
  decide +kernel
/-- A-DISP-2. -/
theorem test_dispatch_extra : (left .dispatch (received shortExtra .extra)).dedup =
    [none, none, none, some (.str "Eco"), none, some (.bool true), none] := by decide +kernel
/-- P5 line 3: the handshake response closes the transaction. -/
theorem test_rxPri :
    (left .rxPri { opened .internal with priRx := initr }).statusWord = 0x01000028 := by decide +kernel
/-- A-EX-2. -/
theorem test_rxExt :
    (left .rxExt (external .idle sh)).statusWord = 0x000001AE ∧ (left .rxExt (external .idle sh)).priTx = sh := by
  decide +kernel
/-- A-EX-3. -/
theorem test_rxExt_drop :
    answer .rxExt (external .internal sh) = some ⟨.busy, .empty⟩ ∧ (left .rxExt (external .internal sh)).extRx = [] := by
  decide +kernel
/-- A-FL-3. -/
theorem test_flush : (left .flush { pending [0x20] .empty with dirty := true }).statusWord = 0x0000002D ∧
    (left .flush { pending [0x20] .empty with dirty := true }).priTx =
      [0xF1, 0x6F, 0x01, 0x10, 0x20] ++ List.replicate 108 0 ++ [0x6F] := by decide +kernel
/-- A-FA-3: also while faulted. -/
theorem test_rdStatus :
    answer (.rdStatus .faultInfo) (left (.rbPeek 3) State.reset) = some ⟨.ok, .word 3⟩ := by decide +kernel
/-- A-LP-1. -/
theorem test_evLoop : answer .evLoop State.reset = some ⟨.ok, .bytes [0x02, 0x06, 0x06]⟩ := by decide +kernel
/-- P3 line 7 on a short frame. -/
theorem test_evLoop_response :
    answer .evLoop { opened .internal with priRx := shortStd } = some ⟨.ok, .bytes [0x00, 0x06, 0x06]⟩ := by
  decide +kernel
/-- A-UP-3. -/
theorem test_evUpdate :
    answer .evUpdate { State.reset with pollDis := false, pollCnt := 1, extraSup := true } = some ⟨.ok, .cls .extra⟩ := by
  decide +kernel
/-- A-UP-5. -/
theorem test_evUpdate_wraps :
    (left .evUpdate { State.reset with pollDis := false, pollCnt := 0xFFFFFFFF }).pollCnt = 0 := by decide +kernel
/-- A-TO-1. -/
theorem test_evTimeout : (left .evTimeout (opened .internal)).statusWord = 0x00000028 := by decide +kernel
/-- A-SE-8. -/
theorem test_evSettle : (left .evSettle State.reset).statusWord = 0x00000035 := by decide +kernel
/-- A-SE-11. -/
theorem test_evSettle_proxy :
    (left .evSettle (left .txnStartExt State.reset)).statusWord = 0x000000A6 := by decide +kernel
/-- A-PS-1. -/
theorem test_evPstart : (left .evPstart (left .evSettle State.reset)).statusWord = 0x00000005 := by decide +kernel
/-- A-SE-1. -/
theorem test_frameTxInit :
    (left (.frameTxInit 0x01) State.reset).view .v2 = [0x31, 0x08, 0x01, 0x01, 0, 0, 0, 0, 0, 0, 0xC5] := by
  decide +kernel
/-- A-SE-2: the header. -/
theorem test_frameTxStdPoll :
    ((left (.frameTxStdPoll 0x01) State.reset).view .v2).take 4 = [0x71, 0x6F, 0x01, 0x10] := by decide +kernel
/-- A-SE-3: the header. -/
theorem test_frameTxExtPoll :
    ((left (.frameTxExtPoll 0x01) State.reset).view .v2).take 4 = [0x71, 0x6F, 0x01, 0x21] := by decide +kernel
/-- A-SE-4: the header. -/
theorem test_frameTxCmd :
    ((left (.frameTxCmd 0x01 0x10) State.reset).view .v2).take 4 = [0xF1, 0x6F, 0x01, 0x10] := by decide +kernel
/-- UNK. -/
theorem test_frameRxPrePoll :
    answer (.frameRxPrePoll 0x06 0x02 0x55) (given (.bytes [0, 0, 0, 0, 0x32])) = some ⟨.ok, .cls .unknown⟩ := by
  decide +kernel
/-- UNK with preamble F1: checksum 80 less. -/
theorem test_frameRxPreCmd :
    answer (.frameRxPreCmd 0x06 0x02 0x55) (given (.bytes [0, 0, 0, 0, 0xB2])) = some ⟨.ok, .cls .unknown⟩ := by
  decide +kernel
/-- UNK with preamble 31: checksum 40 more. -/
theorem test_frameRxPreInit :
    answer (.frameRxPreInit 0x06 0x02 0x55) (given (.bytes [0, 0, 0, 0, 0x72])) = some ⟨.ok, .cls .unknown⟩ := by
  decide +kernel
/-- INITR. -/
theorem test_frameRxCatInit :
    answer (.frameRxCatInit 0x31 0x08 0x02) (given (.bytes [0, 0, 0, 0, 0, 0, 0xC4])) = some ⟨.ok, .cls .init⟩ := by
  decide +kernel
/-- SH. -/
theorem test_frameRxCatStd :
    answer (.frameRxCatStd 0xF1 0x06 0x02) (given (.bytes [0xAA, 0xAA, 0xAA, 0xAA, 0x4F])) = some ⟨.ok, .cls .std⟩ := by
  decide +kernel
/-- SH with category 21: checksum 11 less. -/
theorem test_frameRxCatExtra :
    answer (.frameRxCatExtra 0xF1 0x06 0x02) (given (.bytes [0xAA, 0xAA, 0xAA, 0xAA, 0x3E])) = some ⟨.ok, .cls .extra⟩ := by
  decide +kernel

/-! ### Reset -/

/-- R48. -/
theorem test_reset_status :
    State.reset.statusWord = 0x00000028 ∧ (State.resetWith vcExt).statusWord = 0x00000128 := by decide +kernel
/-- A-FA-5. -/
theorem test_reset_bad_ring : (State.resetWith { Config.vc with rbCap := 100 }).statusWord = 0x000B0428 ∧
    (State.resetWith { Config.vc with rbCap := 100 }).faultInfo = 1 := by decide +kernel
/-- A-FA-6. -/
theorem test_reset_bad_slot : (State.resetWith badIndex).faultInfo = 102 := by decide +kernel

/-! ### Witnesses: a concrete state and operands that meet the hypotheses of each statement -/

/-- Each word carries its row's fixed bits (Laws/PerInstr.lean). -/
theorem every_word_carries_its_row (i : Instr) : Laws.TableRow.Statement i :=
  match i with
  | .nop => Laws.TableRow.nop
  | .rbSize => Laws.TableRow.rbSize
  | .rbPush cnt => Laws.TableRow.rbPush cnt
  | .rbPeek cnt => Laws.TableRow.rbPeek cnt
  | .rbPop => Laws.TableRow.rbPop
  | .rbDiscardUntil mrk => Laws.TableRow.rbDiscardUntil mrk
  | .rdBits view off bit w => Laws.TableRow.rdBits view off bit w
  | .wrBits view off bit w => Laws.TableRow.wrBits view off bit w
  | .rdBytes view off w => Laws.TableRow.rdBytes view off w
  | .wrBytes view off w => Laws.TableRow.wrBytes view off w
  | .rdArray view off w => Laws.TableRow.rdArray view off w
  | .wrArray view off w => Laws.TableRow.wrArray view off w
  | .decTri view slot => Laws.TableRow.decTri view slot
  | .encTri view slot => Laws.TableRow.encTri view slot
  | .decScaled view slot => Laws.TableRow.decScaled view slot
  | .encScaled view slot => Laws.TableRow.encScaled view slot
  | .decIndex view slot => Laws.TableRow.decIndex view slot
  | .encIndex view slot => Laws.TableRow.encIndex view slot
  | .decKeyed view slot => Laws.TableRow.decKeyed view slot
  | .encKeyed view slot => Laws.TableRow.encKeyed view slot
  | .decCustom view slot => Laws.TableRow.decCustom view slot
  | .encCustom view slot => Laws.TableRow.encCustom view slot
  | .slotNotify slot => Laws.TableRow.slotNotify slot
  | .slotWrite slot => Laws.TableRow.slotWrite slot
  | .parse => Laws.TableRow.parse
  | .ckGen => Laws.TableRow.ckGen
  | .ckChk view => Laws.TableRow.ckChk view
  | .serInit => Laws.TableRow.serInit
  | .serStd => Laws.TableRow.serStd
  | .serExt => Laws.TableRow.serExt
  | .serCmd => Laws.TableRow.serCmd
  | .txSend => Laws.TableRow.txSend
  | .txnStartInt => Laws.TableRow.txnStartInt
  | .txnStartExt => Laws.TableRow.txnStartExt
  | .txnStop => Laws.TableRow.txnStop
  | .dispatch => Laws.TableRow.dispatch
  | .rxPri => Laws.TableRow.rxPri
  | .rxExt => Laws.TableRow.rxExt
  | .flush => Laws.TableRow.flush
  | .rdStatus sel => Laws.TableRow.rdStatus sel
  | .evLoop => Laws.TableRow.evLoop
  | .evUpdate => Laws.TableRow.evUpdate
  | .evTimeout => Laws.TableRow.evTimeout
  | .evSettle => Laws.TableRow.evSettle
  | .evPstart => Laws.TableRow.evPstart
  | .frameTxInit dir => Laws.TableRow.frameTxInit dir
  | .frameTxStdPoll dir => Laws.TableRow.frameTxStdPoll dir
  | .frameTxExtPoll dir => Laws.TableRow.frameTxExtPoll dir
  | .frameTxCmd dir cat => Laws.TableRow.frameTxCmd dir cat
  | .frameRxPrePoll len dir cat => Laws.TableRow.frameRxPrePoll len dir cat
  | .frameRxPreCmd len dir cat => Laws.TableRow.frameRxPreCmd len dir cat
  | .frameRxPreInit len dir cat => Laws.TableRow.frameRxPreInit len dir cat
  | .frameRxCatInit pre len dir => Laws.TableRow.frameRxCatInit pre len dir
  | .frameRxCatStd pre len dir => Laws.TableRow.frameRxCatStd pre len dir
  | .frameRxCatExtra pre len dir => Laws.TableRow.frameRxCatExtra pre len dir

theorem witness_DecodeOfEncodeIsTheInstruction :
    (Instr.rdBits .v3 511 15 63).wf = true ∧ (Instr.frameRxPreInit 0xFF 0xFF 0xFF).wf = true := by decide

theorem witness_EncodeOfDecodeIsTheWord :
    decode .command 0x10FFFFF8 = .ok (.rdBits .v3 511 15 63) ∧
    decode .txHeader 0xF16FFFFF = .ok (.frameTxCmd 0xFF 0xFF) ∧
    decode .rxHeader 0x31FFFFFF = .ok (.frameRxPreInit 0xFF 0xFF 0xFF) := ⟨rfl, rfl, rfl⟩

theorem witness_ReservedWordRaisesIllegalCommand :
    let s : State := { State.reset with inputs := [.command 0x06000000 .empty] }
    s.faulted = false ∧ s.inputs = .command 0x06000000 .empty :: [] ∧
      ∀ i : Instr, i.encoding = .command → encode i ≠ 0x06000000 := by
  refine ⟨by decide, rfl, fun i hi h => ?_⟩
  have hr : (0x06000000 : Word) &&& (Laws.tableRow i).1 = (Laws.tableRow i).2 := h ▸ every_word_carries_its_row i
  cases i <;> simp only [Laws.tableRow, Instr.encoding, reduceCtorEq] at hi hr <;> exact absurd hr (by decide)

theorem witness_StepRunsTheDecodedInstruction :
    (Instr.nop.wf = true ∧ Instr.nop.encoding = .command ∧
      ({ State.reset with inputs := [.command (encode .nop) .empty] } : State).inputs =
        .command (encode .nop) .empty :: []) ∧
    ((Instr.frameTxInit 1).wf = true ∧ (Instr.frameTxInit 1).encoding = .txHeader ∧
      ({ State.reset with inputs := [.txFrame (encode (.frameTxInit 1))] } : State).inputs =
        .txFrame (encode (.frameTxInit 1)) :: []) ∧
    ((Instr.frameRxCatStd 0xF1 6 2).wf = true ∧ (Instr.frameRxCatStd 0xF1 6 2).encoding = .rxHeader ∧
      ({ State.reset with inputs := [.rxFrame (encode (.frameRxCatStd 0xF1 6 2)) []] } : State).inputs =
        .rxFrame (encode (.frameRxCatStd 0xF1 6 2)) [] :: []) := by decide

/-- The inputs, and headers of no row: 31 09 01 01 to send (the length is not INIT's), 70 10 01 55 received. -/
theorem witness_StepWithoutACommand :
    State.reset.inputs = [] ∧
    ({ State.reset with inputs := [.arrive .pri [1]] } : State).inputs = .arrive .pri [1] :: [] ∧
    ({ State.reset with inputs := [.arrive .ext [1]] } : State).inputs = .arrive .ext [1] :: [] ∧
    ({ State.reset with inputs := [.reset Config.vc] } : State).inputs = .reset Config.vc :: [] ∧
    ({ State.reset with inputs := [.txFrame 0x31090101] } : State).inputs = .txFrame 0x31090101 :: [] ∧
    (∀ i : Instr, i.encoding = .txHeader → encode i ≠ 0x31090101) ∧
    ({ State.reset with inputs := [.rxFrame 0x70100155 []] } : State).inputs = .rxFrame 0x70100155 [] :: [] ∧
    (∀ i : Instr, i.encoding = .rxHeader → encode i ≠ 0x70100155) ∧
    State.reset.faulted = false ∧ (left .rbPop State.reset).faulted = true := by
  refine ⟨rfl, rfl, rfl, rfl, rfl, fun i hi h => ?_, rfl, fun i hi h => ?_, by decide, by decide⟩
  · have hr : (0x31090101 : Word) &&& (Laws.tableRow i).1 = (Laws.tableRow i).2 := h ▸ every_word_carries_its_row i
    cases i <;> simp only [Laws.tableRow, Instr.encoding, reduceCtorEq] at hi hr <;> exact absurd hr (by decide)
  · have hr : (0x70100155 : Word) &&& (Laws.tableRow i).1 = (Laws.tableRow i).2 := h ▸ every_word_carries_its_row i
    cases i <;> simp only [Laws.tableRow, Instr.encoding, reduceCtorEq] at hi hr <;> exact absurd hr (by decide)

theorem witness_ResetSetsEveryElement :
    Config.vc.firstFailing = none ∧ 6 < Config.vc.slots.length ∧
    ({ Config.vc with rbCap := 257 } : Config).firstFailing = some 1 ∧ badIndex.firstFailing = some 102 := by
  decide +kernel

theorem witness_ResetStatusWord : Config.vc.wf = true ∧ vcExt.wf = true := by decide +kernel

/-- Each check at its boundary, by the number the first failing one gives. -/
theorem witness_WellFormedConfigurationChecks :
    ({ Config.vc with rbCap := 258 } : Config).wf = true ∧
    ({ Config.vc with rbCap := 257 } : Config).firstFailing = some 1 ∧
    ({ Config.vc with rxChunkMax := 513 } : Config).firstFailing = some 2 ∧
    ({ Config.vc with minPacketSize := 255 } : Config).firstFailing = some 3 ∧
    ({ Config.vc with minPacketSize := 7 } : Config).wf = true ∧
    ({ Config.vc with minPacketSize := 8 } : Config).firstFailing = some 4 ∧
    ({ Config.vc with initPayload := [] } : Config).firstFailing = some 5 ∧
    ({ Config.vc with catStd := 0x21 } : Config).firstFailing = some 6 ∧
    ({ Config.vc with slots := Config.vcSlots ++ List.replicate 250 ⟨0, 3, 2, .tri, .std, .rw⟩ } : Config).firstFailing = some 7 ∧
    badIndex.firstFailing = some 102 := by decide +kernel

/-- A state with a command waiting that meets the invariant. -/
theorem witness_StepKeepsTheInvariant :
    Inv { State.reset with inputs := [.command 0x50000000 .empty] } where
  ring := by unfold ringBounded; decide
  timer := by unfold timerMatches; decide
  proxy := by unfold proxyFreezes; decide
  boot := by unfold bootPhases; decide
  arrays := by unfold arraysSound; decide
  frame := by unfold frameSound; decide
  cells := by unfold cellsSound; decide
  config := by unfold configSound; decide
  latch := Or.inl (by decide)
  attachment := by unfold attachmentSound; decide

theorem witness_ConfigurationAndReceivedFrameAreNotWritten :
    (∃ t, exec .serInit State.reset = .next t) ∧ Instr.serInit ≠ .parse ∧ Instr.serInit ≠ .rxPri ∧
      Instr.serInit ≠ .evLoop ∧ Instr.serInit.encoding ≠ .rxHeader :=
  ⟨⟨_, rfl⟩, by decide⟩

theorem witness_FaultsArePrecise :
    exec .rbPop State.reset = .next (left .rbPop State.reset) ∧ State.reset.faulted = false ∧
      (left .rbPop State.reset).faulted = true := ⟨rfl, by decide, by decide⟩

/-- A faulted engine with inputs. -/
def stopped (x : Input) : State := { left .rbPop State.reset with inputs := [x] }

theorem witness_FaultedEngineAnswersOnlyStatus :
    (stopped (.command 0 .empty)).faulted = true ∧ (stopped (.command 0 .empty)).inputs = .command 0 .empty :: [] ∧
    (∀ sel, (0 : Word) ≠ encode (.rdStatus sel)) ∧
    (stopped (.command 0x5FC00000 .empty)).inputs = .command (encode (.rdStatus .faultInfo)) .empty :: [] ∧
    (stopped (.arrive .pri [1])).inputs = .arrive .pri [1] :: [] ∧
    (∃ t, step (stopped (.arrive .pri [1])) = .next t) := by
  refine ⟨by decide, rfl, fun sel => by cases sel <;> decide, rfl, rfl, ⟨_, rfl⟩⟩

theorem witness_WrongDataOperandRaisesDataRange :
    (Instr.rbPush 2).encoding = .command ∧ (given (.bytes [0x71])).faulted = false ∧
      operandFits (.rbPush 2) (given (.bytes [0x71])).data = false ∧
      operandFits .nop (given (.nat 0)).data = false := by decide

theorem witness_RingSizePeekAndPop :
    Ready (holding [1, 2]) .empty ∧ (1 : BitVec 9).toNat < (holding [1, 2]).rbQ.length ∧
      (holding [1, 2]).rbQ.length ≤ (2 : BitVec 9).toNat ∧ Ready State.reset .empty ∧ State.reset.rbQ = [] ∧
      (holding [1, 2]).rbQ = 1 :: [2] := by unfold Ready; decide

theorem witness_RingPush :
    Ready (given (.bytes [1])) (.bytes [1]) ∧ [1].length ≠ (2 : BitVec 9).toNat ∧
    [1].length = (1 : BitVec 9).toNat ∧
    511 + (1 : BitVec 9).toNat ≤ ({ given (.bytes [1]) with rbQ := List.replicate 511 0 } : State).cfg.rbCap.toNat ∧
    ({ given (.bytes [1]) with rbQ := List.replicate 512 0 } : State).cfg.rbCap.toNat < 512 + (1 : BitVec 9).toNat := by
  unfold Ready; decide

theorem witness_RingDiscardUntil : Ready (holding [0x00, 0x12]) .empty := by unfold Ready; decide

theorem witness_ReadBits :
    Ready State.reset .empty ∧
    ¬ (1 ≤ (8 : BitVec 4).toNat ∧ (8 : BitVec 4).toNat ≤ 8 ∧ 1 ≤ (2 : BitVec 6).toNat ∧
      (8 : BitVec 4).toNat + (2 : BitVec 6).toNat ≤ 9) ∧
    (1 ≤ (8 : BitVec 4).toNat ∧ (8 : BitVec 4).toNat ≤ 8 ∧ 1 ≤ (1 : BitVec 6).toNat ∧
      (8 : BitVec 4).toNat + (1 : BitVec 6).toNat ≤ 9) ∧
    (State.reset.view .v1).length ≤ (109 : BitVec 9).toNat ∧
    (108 : BitVec 9).toNat < (State.reset.view .v1).length := by unfold Ready; decide +kernel

theorem witness_WriteBits :
    Ready (given (.nat 3)) (.nat 3) ∧ readOnly .v0 = true ∧ readOnly .v1 = false ∧
    (1 ≤ (7 : BitVec 4).toNat ∧ (7 : BitVec 4).toNat ≤ 8 ∧ 1 ≤ (2 : BitVec 6).toNat ∧
      (7 : BitVec 4).toNat + (2 : BitVec 6).toNat ≤ 9) ∧
    ¬ (8 : BitVec 4).toNat + (2 : BitVec 6).toNat ≤ 9 ∧
    ((given (.nat 3)).view .v1).length ≤ (109 : BitVec 9).toNat ∧
    (108 : BitVec 9).toNat < ((given (.nat 3)).view .v1).length ∧
    2 ^ (1 : BitVec 6).toNat ≤ 3 ∧ 3 < 2 ^ (2 : BitVec 6).toNat := by unfold Ready; decide +kernel

theorem witness_ReadBytesAndArrays :
    Ready State.reset .empty ∧ ¬ (1 ≤ (5 : BitVec 6).toNat ∧ (5 : BitVec 6).toNat ≤ 4) ∧
    (1 ≤ (4 : BitVec 6).toNat ∧ (4 : BitVec 6).toNat ≤ 4) ∧
    (State.reset.view .v1).length < (106 : BitVec 9).toNat + (4 : BitVec 6).toNat ∧
    (105 : BitVec 9).toNat + (4 : BitVec 6).toNat ≤ (State.reset.view .v1).length ∧
    (0 : BitVec 6).toNat = 0 := by unfold Ready; decide +kernel

theorem witness_WriteBytes :
    Ready (given (.nat 255)) (.nat 255) ∧ readOnly .v3 = true ∧ readOnly .v1 = false ∧
    ¬ (1 ≤ (0 : BitVec 6).toNat ∧ (0 : BitVec 6).toNat ≤ 4) ∧ (1 ≤ (1 : BitVec 6).toNat ∧ (1 : BitVec 6).toNat ≤ 4) ∧
    ((given (.nat 255)).view .v1).length < (109 : BitVec 9).toNat + (1 : BitVec 6).toNat ∧
    (108 : BitVec 9).toNat + (1 : BitVec 6).toNat ≤ ((given (.nat 255)).view .v1).length ∧
    256 ^ (1 : BitVec 6).toNat ≤ 256 ∧ Ready (given (.nat 256)) (.nat 256) ∧ 255 < 256 ^ (1 : BitVec 6).toNat := by
  unfold Ready; decide +kernel

theorem witness_WriteArray :
    Ready (given (.bytes [1])) (.bytes [1]) ∧ [1].length ≠ (2 : BitVec 6).toNat ∧ [1].length = (1 : BitVec 6).toNat ∧
    readOnly .v0 = true ∧ readOnly .v1 = false ∧ Ready (given (.bytes [])) (.bytes []) ∧ (0 : BitVec 6).toNat = 0 ∧
    ((given (.bytes [1])).view .v1).length < (109 : BitVec 9).toNat + (1 : BitVec 6).toNat ∧
    (108 : BitVec 9).toNat + (1 : BitVec 6).toNat ≤ ((given (.bytes [1])).view .v1).length := by
  unfold Ready; decide +kernel

/-- The slots of VC-SLOTS by number. -/
def triSlot : Slot := ⟨0, 3, 2, .tri, .std, .rw⟩
def scaledSlot : Slot := ⟨1, 1, 16, .scaled (1 / 2) (-40), .std, .rw⟩
def indexSlot : Slot := ⟨3, 5, 3, .index ["Heat", "Cool", "Auto"], .std, .rw⟩
def keyedSlot : Slot := ⟨4, 3, 10, .keyed [([0x01, 0x20], "Eco"), ([0x02, 0x00], "Boost")], .extra, .rw⟩
def customSlot : Slot := ⟨0, 1, 0, .custom (some (.sumOfBytes 6 7)) none, .std, .r⟩

theorem witness_slots :
    [0, 1, 2, 3, 4].map (fun n => State.reset.cfg.slots[n]?) =
      [some triSlot, some scaledSlot, some indexSlot, some keyedSlot, some customSlot] := by decide +kernel

theorem witness_SlotOperandChecks :
    State.reset.faulted = false ∧ State.reset.data = .empty ∧
    State.reset.cfg.slots.length ≤ (7 : BitVec 8).toNat ∧ State.reset.cfg.slots[(6 : BitVec 8).toNat]?.isSome ∧
    State.reset.cfg.slots[(1 : BitVec 8).toNat]? = some scaledSlot ∧ scaledSlot.kind ≠ .tri ∧
    scaledSlot.kind = .scaled ∧ scaledSlot.mode ≠ .r ∧ readOnly .v0 = true ∧ readOnly .v1 = false ∧
    (given (.value (.bool true))).faulted = false ∧ (given (.value (.bool true))).data = .value (.bool true) ∧
    kindTakes .scaled (.bool true) = false := by decide +kernel

theorem witness_ShortViewsAreNotErrors :
    State.reset.faulted = false ∧ State.reset.cfg.slots[(1 : BitVec 8).toNat]? = some scaledSlot ∧
    (State.reset.view .v0).length < scaledSlot.req ∧ State.reset.data = .empty ∧
    ((given (.value (.num 1))).view .v2).length < scaledSlot.req ∧ readOnly .v2 = false ∧
    kindTakes scaledSlot.kind (.num 1) = true ∧ (given (.value (.num 1))).data = .value (.num 1) := by decide +kernel

theorem witness_DecodeTriState :
    Ready State.reset .empty ∧ State.reset.cfg.slots[(0 : BitVec 8).toNat]? = some triSlot ∧ triSlot.codec = .tri ∧
    1 ≤ triSlot.bit ∧ triSlot.bit ≤ 7 ∧ (State.reset.view .v0).length ≤ triSlot.byte ∧
    triSlot.byte < (State.reset.view .v1).length := by unfold Ready; decide +kernel

theorem witness_EncodeTriState :
    Ready (given (.value (.bool true))) (.value (.bool true)) ∧
    State.reset.cfg.slots[(0 : BitVec 8).toNat]? = some triSlot ∧ triSlot.codec = .tri ∧ readOnly .v1 = false ∧
    readOnly .v2 = false ∧ ((given (.value (.bool true))).view .v2).length ≤ triSlot.byte ∧
    triSlot.byte < ((given (.value (.bool true))).view .v1).length := by unfold Ready; decide +kernel

theorem witness_DecodeScaled :
    Ready State.reset .empty ∧ State.reset.cfg.slots[(1 : BitVec 8).toNat]? = some scaledSlot ∧
    scaledSlot.codec = .scaled (1 / 2) (-40) ∧
    (State.reset.view .v0).length < scaledSlot.byte + scaledSlot.width / 8 ∧
    scaledSlot.byte + scaledSlot.width / 8 ≤ (State.reset.view .v1).length := by unfold Ready; decide +kernel

/-- The values -20, -41/2 and 32748: the least that fits, and the nearest on either side that do not (A-SC-6 to 9). -/
theorem witness_EncodeScaled :
    Ready (given (.value (.num (-20)))) (.value (.num (-20))) ∧
    (0 : Int) = ⌊(-20 : Rat) / (1 / 2) - (-40)⌋ ∧ ((-41 / 2 : Rat) / (1 / 2) - (-40) < 0) ∧
    ⌈(-41 / 2 : Rat) / (1 / 2) - (-40)⌉ = -1 ∧ (256 ^ (16 / 8) : Int) ≤ ⌊(32748 : Rat) / (1 / 2) - (-40)⌋ ∧
    readOnly .v1 = false ∧ State.reset.cfg.slots[(1 : BitVec 8).toNat]? = some scaledSlot ∧
    ((given (.value (.num (-20)))).view .v2).length < scaledSlot.byte + scaledSlot.width / 8 ∧
    scaledSlot.byte + scaledSlot.width / 8 ≤ ((given (.value (.num (-20)))).view .v1).length := by
  unfold Ready; decide +kernel

/-- Fields 0, 1, 3 and 4 of slot 2 (A-IX-1 to 5). -/
theorem witness_DecodeIndex :
    Ready (pending [0, 0, 0, 0xF1] .empty) .empty ∧
    State.reset.cfg.slots[(2 : BitVec 8).toNat]? = some indexSlot ∧
    1 ≤ indexSlot.bit ∧ 1 ≤ indexSlot.width ∧ indexSlot.bit + indexSlot.width ≤ 9 ∧
    [0xF1, 0xF3, 0xF7, 0xF9].map (fun b =>
      (byteAt ((pending [0, 0, 0, b] .empty).view .v1) 3).toNat / 2 ^ (9 - 5 - 3) % 2 ^ 3) = [0, 1, 3, 4] ∧
    (State.reset.view .v0).length ≤ indexSlot.byte ∧ indexSlot.byte < (State.reset.view .v1).length := by
  unfold Ready; decide +kernel

theorem witness_EncodeIndex :
    Ready (given (.value (.str "Auto"))) (.value (.str "Auto")) ∧
    State.reset.cfg.slots[(2 : BitVec 8).toNat]? = some indexSlot ∧ Slot.ok State.reset.cfg indexSlot = true ∧
    readOnly .v1 = false ∧ ["Heat", "Cool", "Auto"][2]? = some "Auto" ∧
    (∀ p' < 2, ["Heat", "Cool", "Auto"][p']? ≠ some "Auto") ∧ "Dry" ∉ ["Heat", "Cool", "Auto"] ∧
    ((given (.value (.str "Auto"))).view .v2).length ≤ indexSlot.byte ∧
    indexSlot.byte < ((given (.value (.str "Auto"))).view .v1).length := by unfold Ready; decide +kernel

/-- A known key and an unknown one (A-KY-1, A-KY-4), and a view too short. -/
theorem witness_DecodeKeyed :
    Ready (pending [0, 0, 0, 0, 0xC1, 0x2F] .empty) .empty ∧
    State.reset.cfg.slots[(3 : BitVec 8).toNat]? = some keyedSlot ∧ Slot.ok State.reset.cfg keyedSlot = true ∧
    keyLength keyedSlot.bit keyedSlot.width = 2 ∧
    kmask 3 10 (subseq ((pending [0, 0, 0, 0, 0xC1, 0x2F] .empty).view .v1) 4 2) = [0x01, 0x20] ∧
    kmask 3 10 (subseq (State.reset.view .v1) 4 2) = [0, 0] ∧
    (State.reset.view .v0).length < keyedSlot.byte + 2 ∧ keyedSlot.byte + 2 ≤ (State.reset.view .v1).length := by
  unfold Ready; decide +kernel

/-- The key `K = [01, 20]` has the field's bits of the view's bytes C1 2F and no other. -/
theorem witness_DecodeKeyed_key :
    (∀ i < 2, ∀ j < 8, inField keyedSlot (4 + i) j →
      (byteAt [0x01, 0x20] i).getLsbD j = (byteAt [0, 0, 0, 0, 0xC1, 0x2F] (4 + i)).getLsbD j) ∧
    (∀ i < 2, ∀ j < 8, ¬ inField keyedSlot (4 + i) j → (byteAt [0x01, 0x20] i).getLsbD j = false) := by
  simp only [inField, keyedSlot]
  decide +kernel

theorem witness_EncodeKeyed :
    Ready (given (.value (.str "Boost"))) (.value (.str "Boost")) ∧ Ready (given (.value .undef)) (.value .undef) ∧
    State.reset.cfg.slots[(3 : BitVec 8).toNat]? = some keyedSlot ∧ Slot.ok State.reset.cfg keyedSlot = true ∧
    readOnly .v1 = false ∧ kindTakes .keyed (.str "Boost") = true ∧ kindTakes .keyed .undef = true ∧
    ((given (.value .undef)).view .v2).length < keyedSlot.byte + 2 ∧
    keyedSlot.byte + 2 ≤ ((given (.value .undef)).view .v1).length ∧
    (∀ e ∈ [([0x01#8, 0x20#8], "Eco")], e.2 ≠ "Boost") := by unfold Ready; decide +kernel

/-- A supplied decoder that answers, one that does not, and no encoder (A-CU-1 to 3); an encoder that keeps the
length. -/
theorem witness_CustomCodecs :
    Ready State.reset .empty ∧ State.reset.cfg.slots[(4 : BitVec 8).toNat]? = some customSlot ∧
    (decFnApply (.sumOfBytes 6 7) (State.reset.view .v0)).isNone = true ∧
    decFnApply (.sumOfBytes 6 7) (State.reset.view .v1) = some (.num 0) ∧
    Ready (given (.value (.num 5))) (.value (.num 5)) ∧ readOnly .v1 = false := by unfold Ready; decide +kernel

theorem witness_CustomCodecs_encoder (V : List Byte) (x : Value) :
    (encFnApply (.lengthKeeping 0) V x).length = V.length := by simp [encFnApply]

theorem witness_CodecRoundTrip :
    Slot.ok Config.vc triSlot = true ∧ triSlot.mode ≠ .r ∧ triSlot.req ≤ (List.replicate 1 0xFF#8).length ∧
    Slot.ok Config.vc scaledSlot = true ∧ scaledSlot.req ≤ 3 ∧ (65535 : Nat) < 2 ^ scaledSlot.width ∧
    Slot.ok Config.vc indexSlot = true ∧ indexSlot.req ≤ 4 ∧ "Auto" ∈ ["Heat", "Cool", "Auto"] ∧
    Slot.ok Config.vc keyedSlot = true ∧ keyedSlot.req ≤ 6 ∧ Config.vc.num = .exactRationals := by
  decide +kernel

theorem witness_SlotNotifyPublishesNewValues :
    Ready (received shortStd .std) .empty ∧ State.reset.cfg.slots[(0 : BitVec 8).toNat]? = some triSlot ∧
    cellsSound (received shortStd .std) ∧ State.reset.cfg.slots.length ≤ (7 : BitVec 8).toNat ∧
    (slotDecode .exactRationals triSlot ((received shortStd .std).view .v0)).value = some (.bool false) ∧
    (received shortStd .std).dedup[0]? ≠ some (some (.bool false)) ∧
    (left (.slotNotify 0) (received shortStd .std)).dedup[0]? = some (some (.bool false)) ∧
    (slotDecode .exactRationals triSlot (State.reset.view .v0)).value = none ∧
    (State.reset.cfg.slots[(6 : BitVec 8).toNat]?.map (·.mode)) = some .w := by
  unfold Ready cellsSound; decide +kernel

theorem witness_SlotWriteMarksDirty :
    Ready (given (.value (.num 30))) (.value (.num 30)) ∧
    State.reset.cfg.slots[(1 : BitVec 8).toNat]? = some scaledSlot ∧ customSlot.mode = .r ∧ scaledSlot.mode ≠ .r ∧
    kindTakes scaledSlot.kind (.num 30) = true ∧ kindTakes indexSlot.kind (.num 30) = false ∧
    State.reset.cfg.slots.length ≤ (7 : BitVec 8).toNat ∧
    (match slotEncode .exactRationals scaledSlot (State.reset.view .v1) (.num 30) with
      | .written _ => true
      | .noEffect _ | .fails _ => false) = true ∧
    slotEncode .exactRationals scaledSlot (State.reset.view .v1) (.num 32748) = .fails .encRange ∧
    slotEncode .exactRationals indexSlot (State.reset.view .v1) (.str "Dry") =
      .noEffect [.log .warning .wEncUnknown] ∧
    State.reset.cfg.num = .exactRationals := by
  unfold Ready; decide +kernel

theorem witness_ChecksumCommands :
    Ready State.reset .empty ∧ State.reset.txbLen < 5 ∧ Ready (left .serInit State.reset) .empty ∧
    5 ≤ (left .serInit State.reset).txbLen := by unfold Ready; decide +kernel

/-- One buffer for each outcome of PARSE: `junk` 00 12 AB, then the rest. -/
theorem witness_ParseOutcomes :
    Ready (holding ([0x00, 0x12, 0xAB] ++ unk)) .empty ∧
    (∀ b ∈ [0x00#8, 0x12, 0xAB], b ∉ State.reset.cfg.rxPreambles) ∧
    [unk, [0x71, 0x6F, 0x01, 0x10], [0x71, 0x05, 0x01, 0x10, 0x00], [0x71, 0x06, 0x01, 0x10, 0x00]].map
      (fun q => (q.head?.map (fun b => decide (b ∈ State.reset.cfg.rxPreambles)), q.length, (byteAt q 1).toNat)) =
      [(some true, 9, 6), (some true, 4, 0x6F), (some true, 5, 5), (some true, 5, 6)] ∧
    sum8 unk = 0 ∧ sum8 [0x71, 0x06, 0x02, 0x10, 0x00, 0x00, 0x00, 0x00, 0x00] ≠ 0 ∧
    [sh, unk, initr].map (fun F => classOf State.reset.cfg (byteAt F 3)) = [.std, .unknown, .init] := by
  unfold Ready; decide +kernel

theorem witness_ParserProgress :
    Config.vc.wf = true ∧ Ready (holding unk) .empty ∧ (parseBody (holding unk)).1.status ≠ .needMore ∧
    (parseBody (holding [0x71])).1.status = .needMore ∧
    (holding (List.replicate 512 0x71)).rbQ.length = State.reset.cfg.rbCap.toNat := by unfold Ready; decide +kernel

theorem witness_SerializersBuildTheirFrames : Ready State.reset .empty := by unfold Ready; decide

theorem witness_SerializedFramesParse :
    State.reset.cfg.wf = true ∧ Ready State.reset .empty ∧
    exec .serInit State.reset = .next (left .serInit State.reset) ∧
    Ready (holding ((left .serInit State.reset).view .v2)) .empty ∧
    (holding ((left .serInit State.reset).view .v2)).cfg = State.reset.cfg ∧
    (holding ((left .serInit State.reset).view .v2)).rbQ = (left .serInit State.reset).view .v2 := by
  refine ⟨by decide, ⟨by decide, rfl⟩, rfl, ⟨by decide, rfl⟩, rfl, rfl⟩

theorem witness_TransmitSendsTheBuiltFrame :
    Ready State.reset .empty ∧ State.reset.txbLen = 0 ∧ Ready (left .serInit State.reset) .empty ∧
    (left .serInit State.reset).txbLen ≠ 0 := by unfold Ready; decide +kernel

theorem witness_FrameTxRowsBuildTheirFrames : State.reset.faulted = false := by decide

/-- `SH` arriving as a FRAME_RX_CAT_STD, and as a FRAME_RX_PRE_CMD. -/
theorem witness_FrameRxRowsReceiveTheFrame :
    let s := given (.bytes [0xAA, 0xAA, 0xAA, 0xAA, 0x4F])
    s.faulted = false ∧ [0xAA, 0xAA, 0xAA, 0xAA, 0x4F] = restOf s.data ∧ s.cfg.wf = true ∧ s.rbQ = [] ∧ s.priRx = [] ∧
    (0xF1 : Byte) ∈ s.cfg.rxPreambles ∧ s.cfg.minPacketSize < (0x06 : Byte).toNat ∧
    [0xAA, 0xAA, 0xAA, 0xAA, 0x4F].length + 1 = (0x06 : Byte).toNat ∧
    [0xAA, 0xAA, 0xAA, 0xAA, 0x4F].length + 4 ≤ s.cfg.rxChunkMax ∧
    sum8 ([0xF1, 0x06, 0x02, 0x10] ++ [0xAA, 0xAA, 0xAA, 0xAA, 0x4F]) = 0 ∧
    (left .rbPop State.reset).faulted = true ∧ [] = restOf (left .rbPop State.reset).data := by decide +kernel

theorem witness_TransactionStartAndStop :
    Ready State.reset .empty ∧ State.reset.txnState = .idle ∧ Ready (opened .external) .empty ∧
    (opened .external).txnState ≠ .idle := by unfold Ready; decide

theorem witness_TimeoutAndUnarmedTimers :
    Ready (opened .internal) .empty ∧ (opened .internal).txnTmr = true ∧ Ready State.reset .empty ∧
    State.reset.txnTmr = false ∧ State.reset.pstartTmr = false ∧
    Ready (left .evSettle State.reset) .empty ∧ (left .evSettle State.reset).settleTmr = false := by
  unfold Ready; decide +kernel

theorem witness_DispatchNotifiesInSomeOrder :
    Ready (received initr .init) .empty ∧ (received initr .init).fbCat ≠ .std ∧ (received initr .init).fbCat ≠ .extra ∧
    Ready (received shortStd .std) .empty ∧ (received shortStd .std).fbCat = .std ∧
    Ready (received shortExtra .extra) .empty ∧ (received shortExtra .extra).fbCat = .extra := by
  unfold Ready; decide +kernel

theorem witness_SecondDispatchPublishesNothing :
    Ready (received shortStd .std) .empty ∧ cellsSound (received shortStd .std) ∧
    exec .dispatch (received shortStd .std) = .next (left .dispatch (received shortStd .std)) ∧
    exec .dispatch (left .dispatch (received shortStd .std)) =
      .next (left .dispatch (left .dispatch (received shortStd .std))) :=
  ⟨⟨by decide, rfl⟩, by unfold cellsSound; decide, rfl, rfl⟩

/-- A batch that does not fill `RX_CHUNK_MAX` and one that does; a parse that accepts and one that does not. -/
theorem witness_ReceiveFromPrimary :
    Ready { State.reset with priRx := sh } .empty ∧ 9 = min sh.length (min 256 (512 - 0)) ∧
    256 = min (List.replicate 300 0x71#8).length (min 256 (512 - 0)) ∧
    (parseBody (holding sh)).1 = ⟨.ok, .cls .std⟩ ∧ (parseBody (holding [])).1 = ⟨.needMore, .empty⟩ := by
  unfold Ready; decide +kernel

theorem witness_ReceiveFromExternal :
    Ready State.reset .empty ∧ State.reset.extAttached = false ∧
    Ready (external .idle sh) .empty ∧ 9 = min (external .idle sh).extRx.length (external .idle sh).cfg.rxChunkMax ∧
    (external .idle sh).extAttached = true ∧ (external .idle sh).extRx ≠ [] ∧ (external .idle []).extRx = [] ∧
    (external .idle sh).txnState = .idle ∧ (external .external sh).txnState = .external ∧
    (external .internal sh).txnState = .internal ∧ (external .internal sh).cfg.extContention = .drop ∧
    ({ Config.vc with extContention := .hold } : Config).wf = true := by unfold Ready; decide +kernel

theorem witness_FlushSendsThePendingCommand :
    Ready State.reset .empty ∧ State.reset.dirty = false ∧ ({ State.reset with dirty := true } : State).dirty = true ∧
    Ready { State.reset with dirty := true } .empty ∧ State.reset.txnState = .idle ∧
    (opened .external).txnState ≠ .idle := by unfold Ready; decide

theorem witness_LoopRunsTheThreeBodiesInOrder : Ready { State.reset with dirty := true, priRx := sh } .empty := by
  unfold Ready; decide

theorem witness_UpdateSendsOnePoll :
    Ready State.reset .empty ∧ State.reset.pollDis = true ∧
    ({ opened .internal with pollDis := false } : State).pollDis = false ∧ (opened .internal).txnState ≠ .idle ∧
    State.reset.txnState = .idle ∧ ((0xFFFFFFFF : BitVec 32).toNat % 2 = 1 ∧ (0 : BitVec 32).toNat % 2 ≠ 1) := by
  unfold Ready; decide

theorem witness_BootTimersHandshakeAndPolling :
    Ready State.reset .empty ∧ State.reset.settleTmr = true ∧ State.reset.proxyActive = false ∧
    State.reset.txnState = .idle ∧ (left .txnStartExt State.reset).proxyActive = true ∧
    (opened .internal).txnState ≠ .idle ∧ Ready (left .evSettle State.reset) .empty ∧
    (left .evSettle State.reset).pstartTmr = true ∧
    ({ left .evSettle State.reset with proxyActive := true } : State).pstartTmr = true ∧
    (left .evSettle State.reset).settleTmr = false ∧ State.reset.pstartTmr = false := by
  unfold Ready; decide +kernel

theorem witness_StatusWordsAndNop :
    State.reset.data = .empty ∧ (left .rbPop State.reset).faulted = true ∧ Ready State.reset .empty ∧
    (holding (List.replicate 512 0)).rbQ.length < 2 ^ 16 ∧ (received shortStd .std).fbLen < 2 ^ 9 := by
  unfold Ready; decide +kernel

/-- A start and a stop of a transaction. -/
theorem witness_TransactionStateChangesOnlyAsTheTable :
    exec .txnStartInt State.reset = .next (left .txnStartInt State.reset) ∧
    (left .txnStartInt State.reset).txnState ≠ State.reset.txnState ∧ Instr.txnStartInt ≠ .evLoop ∧
    Instr.txnStartInt.encoding ≠ .rxHeader ∧
    exec .txnStop (opened .internal) = .next (left .txnStop (opened .internal)) ∧
    (left .txnStop (opened .internal)).txnState ≠ (opened .internal).txnState :=
  ⟨rfl, by decide, by decide, by decide, rfl, by decide⟩

theorem witness_ProxySuppressionHoldsUntilReset :
    let s : State := { left .txnStartExt State.reset with inputs := [.command 0x64000000 .empty] }
    s.proxyActive = true ∧ s.pollDis = true ∧ (∀ c rest, s.inputs ≠ .reset c :: rest) ∧ (∃ t, step s = .next t) ∧
      Ready s .empty ∧ ({ s with dirty := true, txnState := .idle } : State).dirty = true ∧
      exec .evPstart (left .evSettle State.reset) = .next (left .evPstart (left .evSettle State.reset)) ∧
      (left .evSettle State.reset).pollDis = true ∧ (left .evPstart (left .evSettle State.reset)).pollDis = false :=
  ⟨by decide, by decide, fun c rest h => by simp at h, ⟨_, rfl⟩, ⟨by decide, by decide⟩, rfl, rfl, by decide,
    by decide⟩

theorem witness_TimeoutAndResponseCommute :
    let s : State := { opened .internal with priRx := sh }
    Ready s .empty ∧ timerMatches s ∧ (left .rxPri s).resp = some ⟨.ok, .cls .std⟩ ∧
    exec .rxPri s = .next (left .rxPri s) ∧ exec .evTimeout (left .rxPri s) = .next (left .evTimeout (left .rxPri s)) ∧
    exec .evTimeout s = .next (left .evTimeout s) ∧
    exec .rxPri (left .evTimeout s) = .next (left .rxPri (left .evTimeout s)) ∧ s.txnState ≠ .idle :=
  ⟨⟨by decide, rfl⟩, by unfold timerMatches; decide, by decide +kernel, rfl, rfl, rfl, rfl, by decide⟩

/-! ### The assembler lines of R114 and a pseudo-instruction of R115 -/

theorem test_assembly_rdBits : assemblerLine (.rdBits .v0 5 1 2) = some "RD.BITS V0, 5, 1, 2" := by decide

theorem test_assembly_rdBytes : assemblerLine (.rdBytes .v0 10 2) = some "RD.BYTES V0, 10, 2" := by decide

theorem test_pseudo_rdU16 : expandPseudo (.rdU16 .v0 1) = [.rdBytes .v0 1 2] := by decide

end Sys2Proof.Tests
end

section
/-! PROOFS. What every instruction keeps: the configuration (00_scope.md R7) and, outside PARSE, the received frame
(10_state.md R34, 20_memory.md R72). A projection of the state is carried through the bodies of the commands by one rule
for each way a body ends or checks. -/

namespace Sys2Proof.Machine

/-! ### What an effect keeps -/

/-- Where the body of a command ends in a response, it leaves the projection `f` as it is in `s`. -/
inductive Effect.Keeps {β : Type} (f : State → β) (s : State) : Effect → Prop
  | done {r : Response} {t : State} (h : f t = f s) : Effect.Keeps f s (.done r t)
  | raise {c : FaultCode} {info : Nat} : Effect.Keeps f s (.raise c info)

section
variable {β : Type} {f : State → β} {s : State}

theorem Effect.Keeps.ofPair {p : Response × State} (h : f p.2 = f s) : (Effect.ofPair p).Keeps f s := .done h

theorem Effect.Keeps.ite {p : Prop} [Decidable p] {a b : Effect} (ha : a.Keeps f s) (hb : b.Keeps f s) :
    (if p then a else b).Keeps f s := by
  split
  · exact ha
  · exact hb

theorem Effect.Keeps.whenWritable {v : View} {body : Effect} (h : body.Keeps f s) :
    (whenWritable v body).Keeps f s := .ite .raise h

theorem Effect.Keeps.whenKind {k : Kind} {slot : BitVec 8} {d : Slot} {body : Effect} (h : body.Keeps f s) :
    (whenKind k slot d body).Keeps f s := .ite h .raise

theorem Effect.Keeps.whenTakes {slot : BitVec 8} {d : Slot} {v : Value} {body : Effect} (h : body.Keeps f s) :
    (whenTakes slot d v body).Keeps f s := .ite h .raise

theorem Effect.Keeps.withSlot {u : State} {slot : BitVec 8} {body : Slot → Effect} (h : ∀ d, (body d).Keeps f s) :
    (withSlot u slot body).Keeps f s := by
  unfold Machine.withSlot
  split
  · exact .raise
  · exact h _

/-- A command keeps what its response, a fault and its body keep. -/
theorem command_keeps {α : Type} {i : Instr} {takes : Data → Option α} {body : α → Effect} {t : State}
    (hr : ∀ (u : State) (r : Response), f (u.respond r) = f u)
    (hf : ∀ (c : FaultCode) (info : Nat), f (s.enterFault c info) = f s)
    (h : command i takes body s = .next t) (hb : ∀ d, (body d).Keeps f s) : f t = f s := by
  obtain ⟨-, rfl⟩ | ⟨-, -, rfl⟩ | ⟨-, d, -, ⟨r, u, hd, rfl⟩ | ⟨c, info, -, rfl⟩⟩ := command_cases h
  · exact hr _ _
  · exact hf _ _
  · have hu : (Effect.done r u).Keeps f s := hd ▸ hb d
    cases hu with
    | done hu => exact (hr u r).trans hu
  · exact hf _ _

end

/-! ### The configuration and the received frame -/

/-- `CFG` and the received frame: `FB`, `FB_LEN`, `FB_CAT` (R6, R34). -/
def State.cfgAndFrame (s : State) : Config × Memory × Nat × FrameClass := (s.cfg, s.fb, s.fbLen, s.fbCat)

theorem State.cfgAndFrame_eq_iff (s t : State) :
    t.cfgAndFrame = s.cfgAndFrame ↔ t.cfg = s.cfg ∧ t.fb = s.fb ∧ t.fbLen = s.fbLen ∧ t.fbCat = s.fbCat := by
  simp only [State.cfgAndFrame, Prod.mk.injEq]

theorem command_keeps_cfgAndFrame {α : Type} {i : Instr} {takes : Data → Option α} {body : α → Effect}
    {s t : State} (h : command i takes body s = .next t)
    (hb : ∀ d, (body d).Keeps State.cfgAndFrame s) :
    t.cfgAndFrame = s.cfgAndFrame :=
  command_keeps (fun _ _ => rfl) (fun _ _ => rfl) h hb

theorem command_keeps_cfg {α : Type} {i : Instr} {takes : Data → Option α} {body : α → Effect} {s t : State}
    (h : command i takes body s = .next t) (hb : ∀ d, (body d).Keeps State.cfg s) : t.cfg = s.cfg :=
  command_keeps State.respond_cfg (State.enterFault_cfg s) h hb

/-- A view that shows the received frame is never stored to (R72). -/
theorem cfgAndFrame_store (s : State) (v : View) (off : Nat) (B : List Byte) :
    (s.store v off B).cfgAndFrame = s.cfgAndFrame := by
  cases v <;> rfl

theorem cfgAndFrame_dispatchBody (s : State) : (dispatchBody s).2.cfgAndFrame = s.cfgAndFrame :=
  (congrArg State.cfgAndFrame (dispatchBody_frame s)).trans rfl

theorem cfgAndFrame_rxExtBody (s : State) : (rxExtBody s).2.cfgAndFrame = s.cfgAndFrame :=
  (congrArg State.cfgAndFrame (rxExtBody_frame s)).trans rfl

theorem cfgAndFrame_flushBody (s : State) : (flushBody s).2.cfgAndFrame = s.cfgAndFrame :=
  (congrArg State.cfgAndFrame (flushBody_frame s)).trans rfl

theorem cfgAndFrame_sendPoll (s : State) : (sendPoll s).cfgAndFrame = s.cfgAndFrame := by
  unfold sendPoll
  split <;> rfl

theorem decodeSlot_keeps_cfgAndFrame (k : Kind) (v : View) (slot : BitVec 8) (s : State) :
    (decodeSlot k v slot s).Keeps State.cfgAndFrame s :=
  .withSlot fun _ => .whenKind (.done rfl)

theorem encodeEffect_keeps_cfgAndFrame (v : View) (slot : BitVec 8) (s : State) (e : Encoded) :
    (encodeEffect v slot s e).Keeps State.cfgAndFrame s := by
  cases e with
  | written V => exact .done (cfgAndFrame_store s v 0 V)
  | noEffect logs => exact .done rfl
  | fails c => exact .raise

theorem encodeSlot_keeps_cfgAndFrame (k : Kind) (v : View) (slot : BitVec 8) (x : Value) (s : State) :
    (encodeSlot k v slot x s).Keeps State.cfgAndFrame s :=
  .withSlot fun _ => .whenKind (.whenWritable (.whenTakes (encodeEffect_keeps_cfgAndFrame v slot s _)))

theorem slotWriteEffect_keeps_cfgAndFrame (slot : BitVec 8) (s : State) (e : Encoded) :
    (slotWriteEffect slot s e).Keeps State.cfgAndFrame s := by
  cases e with
  | written V => exact .done rfl
  | noEffect logs => exact .done rfl
  | fails c => exact .raise

/-- A frame HPFE builds goes to TXB alone. -/
theorem transmitFrame_keeps_cfgAndFrame {body : State → State} {s t : State}
    (hb : (body s).cfgAndFrame = s.cfgAndFrame) (h : transmitFrame body s = .next t) :
    t.cfgAndFrame = s.cfgAndFrame := by
  unfold transmitFrame at h
  split at h <;> cases h
  · rfl
  · exact hb

/-! ### The instructions that parse -/

theorem cfg_parseBody (s : State) : (parseBody s).2.cfg = s.cfg := (congrArg State.cfg (parseBody_frame s)).trans rfl

theorem cfg_rxPriBody (s : State) : (rxPriBody s).2.cfg = s.cfg := (congrArg State.cfg (rxPriBody_frame s)).trans rfl

theorem cfg_loopBody (s : State) : (loopBody s).2.cfg = s.cfg :=
  calc (loopBody s).2.cfg
    _ = (rxExtBody (rxPriBody s).2).2.cfg := congrArg Prod.fst (cfgAndFrame_flushBody _)
    _ = (rxPriBody s).2.cfg := congrArg Prod.fst (cfgAndFrame_rxExtBody _)
    _ = s.cfg := cfg_rxPriBody s

theorem cfg_receiveBytes (F : List Byte) (s : State) : (receiveBytes F s).cfg = s.cfg := by
  unfold receiveBytes
  split
  · rfl
  · exact cfg_rxPriBody _

/-- A row of a received frame is the receipt of some bytes (log 8). -/
theorem exec_rxHeader {i : Instr} (hi : i.encoding = .rxHeader) (s : State) :
    ∃ F, exec i s = .next (receiveBytes F s) := by
  cases i with
  | frameRxPrePoll | frameRxPreCmd | frameRxPreInit | frameRxCatInit | frameRxCatStd | frameRxCatExtra =>
    exact ⟨_, rfl⟩
  | _ => cases hi

/-- The instructions that run PARSE. -/
def parses (i : Instr) : Prop := i = .parse ∨ i = .rxPri ∨ i = .evLoop ∨ i.encoding = .rxHeader

theorem exec_keeps_cfg_of_parses {i : Instr} {s t : State} (hi : parses i) (h : exec i s = .next t) :
    t.cfg = s.cfg := by
  obtain rfl | rfl | rfl | hi := hi
  · exact command_keeps_cfg h fun _ => .ofPair (cfg_parseBody s)
  · exact command_keeps_cfg h fun _ => .ofPair (cfg_rxPriBody s)
  · exact command_keeps_cfg h fun _ => .ofPair (cfg_loopBody s)
  · obtain ⟨F, hF⟩ := exec_rxHeader hi s
    obtain rfl : receiveBytes F s = t := by simpa [hF] using h
    exact cfg_receiveBytes F s

/-! ### The instructions that do not parse -/

/-- An instruction that runs no PARSE keeps `CFG` and the received frame. Each body is followed through its checks to
the states it leaves. -/
theorem exec_keeps_cfgAndFrame {i : Instr} {s t : State} (hi : ¬ parses i) (h : exec i s = .next t) :
    t.cfgAndFrame = s.cfgAndFrame := by
  cases i with
  | parse | rxPri | evLoop => simp [parses] at hi
  | frameRxPrePoll | frameRxPreCmd | frameRxPreInit | frameRxCatInit | frameRxCatStd | frameRxCatExtra =>
    simp [parses, Instr.encoding] at hi
  | nop | rbSize | rbDiscardUntil | ckChk | serInit | serStd | serExt | serCmd | txnStop =>
    exact command_keeps_cfgAndFrame h fun _ => .done rfl
  | rbPush | ckGen => exact command_keeps_cfgAndFrame h fun _ => .ite .raise (.done rfl)
  | rbPeek | rbPop =>
    refine command_keeps_cfgAndFrame h fun _ => ?_
    split
    · exact .raise
    · exact .done rfl
  | rdBits | rdBytes | rdArray =>
    exact command_keeps_cfgAndFrame h fun _ => .ite .raise (.ite .raise (.done rfl))
  | wrBits v | wrBytes v =>
    exact command_keeps_cfgAndFrame h fun _ =>
      .whenWritable (.ite .raise (.ite .raise (.ite .raise (.done (cfgAndFrame_store s v _ _)))))
  | wrArray v =>
    exact command_keeps_cfgAndFrame h fun _ =>
      .whenWritable (.ite .raise (.ite .raise (.done (cfgAndFrame_store s v _ _))))
  | decTri v slot | decScaled v slot | decIndex v slot | decKeyed v slot | decCustom v slot =>
    exact command_keeps_cfgAndFrame h fun _ => decodeSlot_keeps_cfgAndFrame _ v slot s
  | encTri v slot | encScaled v slot | encIndex v slot | encKeyed v slot | encCustom v slot =>
    exact command_keeps_cfgAndFrame h fun x => encodeSlot_keeps_cfgAndFrame _ v slot x s
  | slotNotify => exact command_keeps_cfgAndFrame h fun _ => .withSlot fun _ => .ite .raise (.done rfl)
  | slotWrite slot =>
    exact command_keeps_cfgAndFrame h fun _ =>
      .withSlot fun _ => .ite .raise (.whenTakes (slotWriteEffect_keeps_cfgAndFrame slot s _))
  | txSend | txnStartInt | txnStartExt | evTimeout =>
    exact command_keeps_cfgAndFrame h fun _ => .ite (.done rfl) (.done rfl)
  | evPstart => exact command_keeps_cfgAndFrame h fun _ => .ite (.done rfl) (.ite (.done rfl) (.done rfl))
  | evSettle =>
    exact command_keeps_cfgAndFrame h fun _ => .ite (.done rfl) (.ite (.done rfl) (.ite (.done rfl) (.done rfl)))
  | evUpdate =>
    exact command_keeps_cfgAndFrame h fun _ =>
      .ite (.done rfl) (.ite (.done rfl) (.done (cfgAndFrame_sendPoll s)))
  | dispatch => exact command_keeps_cfgAndFrame h fun _ => .ofPair (cfgAndFrame_dispatchBody s)
  | rxExt => exact command_keeps_cfgAndFrame h fun _ => .ofPair (cfgAndFrame_rxExtBody s)
  | flush => exact command_keeps_cfgAndFrame h fun _ => .ofPair (cfgAndFrame_flushBody s)
  | rdStatus sel =>
    change execRdStatus sel s = .next t at h
    unfold execRdStatus at h
    split at h
    · cases h
      rfl
    · exact command_keeps_cfgAndFrame h fun _ => .done rfl
  | frameTxInit | frameTxStdPoll | frameTxExtPoll | frameTxCmd => exact transmitFrame_keeps_cfgAndFrame rfl h

/-- Settles O12: by whether the instruction runs PARSE. -/
theorem configurationAndReceivedFrameAreNotWritten : Obligations.ConfigurationAndReceivedFrameAreNotWritten := by
  unfold Obligations.ConfigurationAndReceivedFrameAreNotWritten
  intro i s t h
  by_cases hi : parses i
  · refine ⟨exec_keeps_cfg_of_parses hi h, fun hparse hpri hloop hrx => ?_⟩
    exact absurd hi (by simp [parses, hparse, hpri, hloop, hrx])
  · obtain ⟨hcfg, hframe⟩ := (State.cfgAndFrame_eq_iff s t).1 (exec_keeps_cfgAndFrame hi h)
    exact ⟨hcfg, fun _ _ _ _ => hframe⟩

end Sys2Proof.Machine
end

section
/-! PROOFS. STATUS after reset (10_state.md R48): the reset values of the elements it shows (70_reset_and_hazards.md
R380), and the fault latch, which a well-formed configuration leaves clear (R357). -/

namespace Sys2Proof

theorem Config.wf_iff (c : Config) : c.wf = true ↔ c.firstFailing = none := Option.isNone_iff_eq_none

end Sys2Proof

namespace Sys2Proof.Machine

/-- The elements of STATUS outside the fault latch, most significant first: reset gives them one value each, but for
`EXT_ATTACHED`, which it takes from the configuration. -/
theorem applyReset_statusFlags (c : Config) (s : State) :
    (s.applyReset c).fbCat = .none ∧ (s.applyReset c).dirty = false ∧
    (s.applyReset c).extAttached = c.extConfigured ∧ (s.applyReset c).proxyActive = false ∧
    (s.applyReset c).extraSup = false ∧ (s.applyReset c).pollDis = true ∧ (s.applyReset c).pstartTmr = false ∧
    (s.applyReset c).settleTmr = true ∧ (s.applyReset c).txnTmr = false ∧ (s.applyReset c).txnState = .idle :=
  ⟨rfl, rfl, rfl, rfl, rfl, rfl, rfl, rfl, rfl, rfl⟩

/-- Reset leaves the fault latch clear when no check of R356 fails. -/
theorem applyReset_latch_of_firstFailing_none {c : Config} (h : c.firstFailing = none) (s : State) :
    (s.applyReset c).faulted = false ∧ (s.applyReset c).faultCode = 0 ∧ (s.applyReset c).faultInfo = 0 := by
  simp [State.applyReset, h]

/-- Settles O8: every field of STATUS has its reset value, and what is left depends on `EXT_CONFIGURED` alone. -/
theorem resetStatusWord : Obligations.ResetStatusWord := by
  unfold Obligations.ResetStatusWord
  intro c s hwf
  obtain ⟨hfaulted, hcode, -⟩ := applyReset_latch_of_firstFailing_none (c.wf_iff.1 hwf) s
  obtain ⟨hcat, hdirty, hext, hproxy, hextra, hpoll, hpstart, hsettle, htmr, htxn⟩ := applyReset_statusFlags c s
  rw [State.statusWord, hfaulted, hcode, hcat, hdirty, hext, hproxy, hextra, hpoll, hpstart, hsettle, htmr, htxn]
  cases c.extConfigured with
  | false => rfl
  | true => rfl

end Sys2Proof.Machine
end

section
/-! PROOFS. The encodings (30_encoding.md R102, R111, R127): each decoder answers an instruction exactly for the
instruction's word. A word is a format's encoding of some fields just when these are its own fields; from that, each
format of the command decoder answers exactly for the encodings of that format, with the word's own opcode. -/

namespace Sys2Proof

/-! ### The two-bit codes of `VIEW` and `SEL` -/

@[simp] theorem viewOfBits_viewBits (v : View) : viewOfBits (viewBits v) = v := by cases v <;> rfl

@[simp] theorem viewBits_viewOfBits (b : BitVec 2) : viewBits (viewOfBits b) = b := by
  revert b
  decide

theorem viewOfBits_eq_iff (b : BitVec 2) (v : View) : viewOfBits b = v ↔ b = viewBits v := by
  constructor
  · rintro rfl
    exact (viewBits_viewOfBits b).symm
  · rintro rfl
    exact viewOfBits_viewBits v

@[simp] theorem selOfBits_selBits (sel : StatusSel) : selOfBits (selBits sel) = sel := by cases sel <;> rfl

@[simp] theorem selBits_selOfBits (b : BitVec 2) : selBits (selOfBits b) = b := by
  revert b
  decide

/-! ### A word is the encoding of its own fields (R102, R127) -/

/-- A word is a concatenation when its two parts are the concatenated ones. -/
theorem eq_append_iff {m n : Nat} (x : BitVec m) (y : BitVec n) (w : BitVec (m + n)) :
    w = x ++ y ↔ w.extractLsb' n m = x ∧ w.extractLsb' 0 n = y := by
  constructor
  · rintro rfl
    exact ⟨BitVec.extractLsb'_append_eq_left, BitVec.extractLsb'_append_eq_right⟩
  · rintro ⟨rfl, rfl⟩
    exact BitVec.extractLsb'_append_extractLsb'.symm

/-- A field of a part of a word is a field of the word. -/
theorem extractLsb'_extractLsb' {m s t len len' : Nat} (w : BitVec m) (h : s + len ≤ len') :
    (w.extractLsb' t len').extractLsb' s len = w.extractLsb' (t + s) len := by
  ext i hi
  simp [show s + i < len' by omega, Nat.add_assoc]

section
variable (opc mrk slot : BitVec 8) (cnt off : BitVec 9) (bit : BitVec 4) (n : BitVec 6) (v : View) (b : BitVec 2)
variable (w : Word)

theorem eq_encodeN_iff : w = encodeN opc ↔ fieldOpc w = opc ∧ fieldRest w = 0 := by
  rw [encodeN, eq_append_iff (n := 24), fieldOpc, fieldRest]

theorem eq_encodeR_iff :
    w = encodeR opc cnt mrk ↔ fieldOpc w = opc ∧ fieldCnt w = cnt ∧ fieldMrk w = mrk ∧ w.extractLsb' 0 7 = 0 := by
  rw [encodeR, eq_append_iff (n := 7), eq_append_iff (n := 8), eq_append_iff (n := 9)]
  simp [fieldOpc, fieldCnt, fieldMrk, and_assoc, extractLsb'_extractLsb']

theorem eq_encodeB_iff :
    w = encodeB opc v off bit n ↔
      fieldOpc w = opc ∧ viewOfBits (fieldView w) = v ∧ fieldOff w = off ∧ fieldBit w = bit ∧ fieldW w = n ∧
        w.extractLsb' 0 3 = 0 := by
  rw [encodeB, eq_append_iff (n := 3), eq_append_iff (n := 6), eq_append_iff (n := 4), eq_append_iff (n := 9),
    eq_append_iff (n := 2), viewOfBits_eq_iff]
  simp [fieldOpc, fieldView, fieldOff, fieldBit, fieldW, and_assoc, extractLsb'_extractLsb']

theorem eq_encodeS_iff :
    w = encodeS opc v slot ↔
      fieldOpc w = opc ∧ viewOfBits (fieldView w) = v ∧ fieldSlot w = slot ∧ w.extractLsb' 0 14 = 0 := by
  rw [encodeS, eq_append_iff (n := 14), eq_append_iff (n := 8), eq_append_iff (n := 2), viewOfBits_eq_iff]
  simp [fieldOpc, fieldView, fieldSlot, and_assoc, extractLsb'_extractLsb']

theorem eq_encodeVT_iff :
    w = encodeVT opc b ↔ fieldOpc w = opc ∧ fieldView w = b ∧ w.extractLsb' 0 22 = 0 := by
  rw [encodeVT, eq_append_iff (n := 22), eq_append_iff (n := 2)]
  simp [fieldOpc, fieldView, and_assoc, extractLsb'_extractLsb']

theorem eq_encodeHeader_iff (b0 b1 b2 b3 : Byte) :
    w = encodeHeader b0 b1 b2 b3 ↔ header0 w = b0 ∧ header1 w = b1 ∧ header2 w = b2 ∧ header3 w = b3 := by
  rw [encodeHeader, eq_append_iff (n := 8), eq_append_iff (n := 8), eq_append_iff (n := 8)]
  simp [header0, header1, header2, header3, and_assoc, extractLsb'_extractLsb']

@[simp] theorem fieldOpc_encodeR : fieldOpc (encodeR opc cnt mrk) = opc := ((eq_encodeR_iff _ _ _ _).1 rfl).1

@[simp] theorem fieldOpc_encodeB : fieldOpc (encodeB opc v off bit n) = opc := ((eq_encodeB_iff _ _ _ _ _ _).1 rfl).1

@[simp] theorem fieldOpc_encodeS : fieldOpc (encodeS opc v slot) = opc := ((eq_encodeS_iff _ _ _ _).1 rfl).1

@[simp] theorem fieldOpc_encodeVT : fieldOpc (encodeVT opc b) = opc := ((eq_encodeVT_iff _ _ _).1 rfl).1

end

/-! ### What each format answers -/

section
variable {opc : BitVec 8} {w : Word} {j : Instr}

theorem admit0_eq_ok_iff {zero : Bool} {i : Instr} : admit0 zero i = .ok j ↔ zero = true ∧ i = j := by
  cases zero <;> simp [admit0]

theorem formatN_eq_ok_iff {i : Instr} (h : fieldOpc w = opc) :
    formatN w i = .ok j ↔ w = encodeN opc ∧ i = j := by
  simp [formatN, admit0_eq_ok_iff, eq_encodeN_iff, h]

theorem formatRCnt_eq_ok_iff {f : BitVec 9 → Instr} (h : fieldOpc w = opc) :
    formatRCnt w f = .ok j ↔ ∃ cnt, w = encodeR opc cnt 0 ∧ f cnt = j := by
  simp [formatRCnt, admit0_eq_ok_iff, eq_encodeR_iff, h, and_assoc]

theorem formatRMrk_eq_ok_iff {f : BitVec 8 → Instr} (h : fieldOpc w = opc) :
    formatRMrk w f = .ok j ↔ ∃ mrk, w = encodeR opc 0 mrk ∧ f mrk = j := by
  simp [formatRMrk, admit0_eq_ok_iff, eq_encodeR_iff, h, and_assoc]

theorem formatBBits_eq_ok_iff {f : View → BitVec 9 → BitVec 4 → BitVec 6 → Instr} (h : fieldOpc w = opc) :
    formatBBits w f = .ok j ↔ ∃ v off bit n, w = encodeB opc v off bit n ∧ f v off bit n = j := by
  simp [formatBBits, admit0_eq_ok_iff, eq_encodeB_iff, h, and_assoc]

theorem formatBBytes_eq_ok_iff {f : View → BitVec 9 → BitVec 6 → Instr} (h : fieldOpc w = opc) :
    formatBBytes w f = .ok j ↔ ∃ v off n, w = encodeB opc v off 0 n ∧ f v off n = j := by
  simp [formatBBytes, admit0_eq_ok_iff, eq_encodeB_iff, h, and_assoc]

theorem formatSView_eq_ok_iff {f : View → BitVec 8 → Instr} (h : fieldOpc w = opc) :
    formatSView w f = .ok j ↔ ∃ v slot, w = encodeS opc v slot ∧ f v slot = j := by
  simp [formatSView, admit0_eq_ok_iff, eq_encodeS_iff, h, and_assoc]

theorem formatSSlot_eq_ok_iff {f : BitVec 8 → Instr} (h : fieldOpc w = opc) :
    formatSSlot w f = .ok j ↔ ∃ slot, w = encodeS opc .v0 slot ∧ f slot = j := by
  simp [formatSSlot, admit0_eq_ok_iff, eq_encodeS_iff, viewOfBits_eq_iff, viewBits, h, and_assoc]

theorem formatVT_eq_ok_iff {f : BitVec 2 → Instr} (h : fieldOpc w = opc) :
    formatVT w f = .ok j ↔ ∃ b, w = encodeVT opc b ∧ f b = j := by
  simp [formatVT, admit0_eq_ok_iff, eq_encodeVT_iff, h, and_assoc]

end

/-! ### The opcode map (R111) -/

/-- The opcode of the word selects the format the word was encoded in (R101). -/
theorem decodeCommand_encode {i : Instr} (hi : i.encoding = .command) : decodeCommand (encode i) = .ok i := by
  cases i with
  | frameTxInit | frameTxStdPoll | frameTxExtPoll | frameTxCmd | frameRxPrePoll | frameRxPreCmd | frameRxPreInit
  | frameRxCatInit | frameRxCatStd | frameRxCatExtra => cases hi
  | rbPush cnt | rbPeek cnt =>
    rw [encode, decodeCommand, fieldOpc_encodeR]
    exact (formatRCnt_eq_ok_iff (fieldOpc_encodeR _ _ _)).2 ⟨cnt, rfl, rfl⟩
  | rbDiscardUntil mrk =>
    rw [encode, decodeCommand, fieldOpc_encodeR]
    exact (formatRMrk_eq_ok_iff (fieldOpc_encodeR _ _ _)).2 ⟨mrk, rfl, rfl⟩
  | rdBits v off bit n | wrBits v off bit n =>
    rw [encode, decodeCommand, fieldOpc_encodeB]
    exact (formatBBits_eq_ok_iff (fieldOpc_encodeB _ _ _ _ _)).2 ⟨v, off, bit, n, rfl, rfl⟩
  | rdBytes v off n | wrBytes v off n | rdArray v off n | wrArray v off n =>
    rw [encode, decodeCommand, fieldOpc_encodeB]
    exact (formatBBytes_eq_ok_iff (fieldOpc_encodeB _ _ _ _ _)).2 ⟨v, off, n, rfl, rfl⟩
  | decTri v slot | encTri v slot | decScaled v slot | encScaled v slot | decIndex v slot | encIndex v slot
  | decKeyed v slot | encKeyed v slot | decCustom v slot | encCustom v slot =>
    rw [encode, decodeCommand, fieldOpc_encodeS]
    exact (formatSView_eq_ok_iff (fieldOpc_encodeS _ _ _)).2 ⟨v, slot, rfl, rfl⟩
  | slotNotify slot | slotWrite slot =>
    rw [encode, decodeCommand, fieldOpc_encodeS]
    exact (formatSSlot_eq_ok_iff (fieldOpc_encodeS _ _ _)).2 ⟨slot, rfl, rfl⟩
  | ckChk v =>
    rw [encode, decodeCommand, fieldOpc_encodeVT]
    exact (formatVT_eq_ok_iff (fieldOpc_encodeVT _ _)).2 ⟨viewBits v, rfl, by rw [viewOfBits_viewBits]⟩
  | rdStatus sel =>
    rw [encode, decodeCommand, fieldOpc_encodeVT]
    exact (formatVT_eq_ok_iff (fieldOpc_encodeVT _ _)).2 ⟨selBits sel, rfl, by rw [selOfBits_selBits]⟩
  | _ => rfl

/-- Each row of the opcode map answers with an instruction of its own opcode and format (R111). The cases are numbered
in the map's order. -/
theorem encode_of_decodeCommand {w : Word} {i : Instr} (h : decodeCommand w = .ok i) :
    i.encoding = .command ∧ encode i = w := by
  unfold decodeCommand at h
  split at h
  -- reserved opcodes
  case h_46 => cases h
  -- RB_PUSH, RB_PEEK
  case h_3 hopc | h_4 hopc =>
    obtain ⟨cnt, rfl, rfl⟩ := (formatRCnt_eq_ok_iff hopc).1 h
    exact ⟨rfl, rfl⟩
  -- RB_DISCARD_UNTIL
  case h_6 hopc =>
    obtain ⟨mrk, rfl, rfl⟩ := (formatRMrk_eq_ok_iff hopc).1 h
    exact ⟨rfl, rfl⟩
  -- RD_BITS, WR_BITS
  case h_7 hopc | h_8 hopc =>
    obtain ⟨v, off, bit, n, rfl, rfl⟩ := (formatBBits_eq_ok_iff hopc).1 h
    exact ⟨rfl, rfl⟩
  -- RD_BYTES to WR_ARRAY
  case h_9 hopc | h_10 hopc | h_11 hopc | h_12 hopc =>
    obtain ⟨v, off, n, rfl, rfl⟩ := (formatBBytes_eq_ok_iff hopc).1 h
    exact ⟨rfl, rfl⟩
  -- DEC_TRI to ENC_CUSTOM
  case h_13 hopc | h_14 hopc | h_15 hopc | h_16 hopc | h_17 hopc | h_18 hopc | h_19 hopc | h_20 hopc | h_21 hopc
    | h_22 hopc =>
    obtain ⟨v, slot, rfl, rfl⟩ := (formatSView_eq_ok_iff hopc).1 h
    exact ⟨rfl, rfl⟩
  -- SLOT_NOTIFY, SLOT_WRITE
  case h_23 hopc | h_24 hopc =>
    obtain ⟨slot, rfl, rfl⟩ := (formatSSlot_eq_ok_iff hopc).1 h
    exact ⟨rfl, rfl⟩
  -- CK_CHK
  case h_27 hopc =>
    obtain ⟨b, rfl, rfl⟩ := (formatVT_eq_ok_iff hopc).1 h
    exact ⟨rfl, by rw [encode, viewBits_viewOfBits]; rfl⟩
  -- RD_STATUS
  case h_40 hopc =>
    obtain ⟨b, rfl, rfl⟩ := (formatVT_eq_ok_iff hopc).1 h
    exact ⟨rfl, by rw [encode, selBits_selOfBits]; rfl⟩
  -- format N
  all_goals
    next hopc =>
    obtain ⟨rfl, rfl⟩ := (formatN_eq_ok_iff hopc).1 h
    exact ⟨rfl, rfl⟩

/-! ### The header rows (R127) -/

@[simp] theorem headers_encodeHeader (b0 b1 b2 b3 : Byte) :
    header0 (encodeHeader b0 b1 b2 b3) = b0 ∧ header1 (encodeHeader b0 b1 b2 b3) = b1 ∧
      header2 (encodeHeader b0 b1 b2 b3) = b2 ∧ header3 (encodeHeader b0 b1 b2 b3) = b3 :=
  (eq_encodeHeader_iff _ _ _ _ _).1 rfl

theorem otherCategory_iff (cat : Byte) : otherCategory cat = true ↔ cat ≠ 0x01#8 ∧ cat ≠ 0x10#8 ∧ cat ≠ 0x21#8 := by
  simp [otherCategory, and_assoc]

theorem decodeTxHeader_encode {i : Instr} (hi : i.encoding = .txHeader) : decodeTxHeader (encode i) = .ok i := by
  cases i with
  | frameTxInit | frameTxStdPoll | frameTxExtPoll | frameTxCmd => simp [decodeTxHeader, encode]
  | _ => cases hi

theorem decodeRxHeader_encode {i : Instr} (hi : i.encoding = .rxHeader) (hwf : i.wf = true) :
    decodeRxHeader (encode i) = .ok i := by
  cases i with
  | frameRxPrePoll _ _ cat | frameRxPreCmd _ _ cat | frameRxPreInit _ _ cat =>
    obtain ⟨hinit, hstd, hextra⟩ := (otherCategory_iff cat).1 hwf
    simp [decodeRxHeader, encode, hinit, hstd, hextra]
  | frameRxCatInit | frameRxCatStd | frameRxCatExtra => simp [decodeRxHeader, encode]
  | _ => cases hi

theorem encode_of_decodeTxHeader {h : Word} {i : Instr} (hd : decodeTxHeader h = .ok i) :
    i.encoding = .txHeader ∧ encode i = h := by
  unfold decodeTxHeader at hd
  split_ifs at hd with hinit hstd hext hcmd <;> cases hd
  · obtain ⟨h0, h1, h3⟩ := hinit
    exact ⟨rfl, ((eq_encodeHeader_iff _ _ _ _ _).2 ⟨h0, h1, rfl, h3⟩).symm⟩
  · obtain ⟨h0, h1, h3⟩ := hstd
    exact ⟨rfl, ((eq_encodeHeader_iff _ _ _ _ _).2 ⟨h0, h1, rfl, h3⟩).symm⟩
  · obtain ⟨h0, h1, h3⟩ := hext
    exact ⟨rfl, ((eq_encodeHeader_iff _ _ _ _ _).2 ⟨h0, h1, rfl, h3⟩).symm⟩
  · obtain ⟨h0, h1⟩ := hcmd
    exact ⟨rfl, ((eq_encodeHeader_iff _ _ _ _ _).2 ⟨h0, h1, rfl, rfl⟩).symm⟩

/-- The category rows come first, so what is left for a preamble row has another category byte (log 9). -/
theorem encode_of_decodeRxHeader {h : Word} {i : Instr} (hd : decodeRxHeader h = .ok i) :
    i.wf = true ∧ i.encoding = .rxHeader ∧ encode i = h := by
  unfold decodeRxHeader at hd
  split_ifs at hd with hinit hstd hextra hpoll hcmd hpre <;> cases hd
  · exact ⟨rfl, rfl, ((eq_encodeHeader_iff _ _ _ _ _).2 ⟨rfl, rfl, rfl, hinit⟩).symm⟩
  · exact ⟨rfl, rfl, ((eq_encodeHeader_iff _ _ _ _ _).2 ⟨rfl, rfl, rfl, hstd⟩).symm⟩
  · exact ⟨rfl, rfl, ((eq_encodeHeader_iff _ _ _ _ _).2 ⟨rfl, rfl, rfl, hextra⟩).symm⟩
  all_goals have hcat := (otherCategory_iff _).2 ⟨hinit, hstd, hextra⟩
  · exact ⟨hcat, rfl, ((eq_encodeHeader_iff _ _ _ _ _).2 ⟨hpoll, rfl, rfl, rfl⟩).symm⟩
  · exact ⟨hcat, rfl, ((eq_encodeHeader_iff _ _ _ _ _).2 ⟨hcmd, rfl, rfl, rfl⟩).symm⟩
  · exact ⟨hcat, rfl, ((eq_encodeHeader_iff _ _ _ _ _).2 ⟨hpre, rfl, rfl, rfl⟩).symm⟩

/-! ### The three encodings (R100) -/

/-- Only the rows of a received frame overlap (log 9): every other instruction is well-formed as it stands. -/
theorem Instr.wf_of_encoding_ne_rxHeader {i : Instr} (h : i.encoding ≠ .rxHeader) : i.wf = true := by
  cases i with
  | frameRxPrePoll | frameRxPreCmd | frameRxPreInit => exact absurd rfl h
  | _ => rfl

/-- Settles O1: encoding by encoding. -/
theorem decodeOfEncodeIsTheInstruction : Obligations.DecodeOfEncodeIsTheInstruction := by
  unfold Obligations.DecodeOfEncodeIsTheInstruction
  intro i hwf
  cases he : i.encoding with
  | command => exact decodeCommand_encode he
  | txHeader => exact decodeTxHeader_encode he
  | rxHeader => exact decodeRxHeader_encode he hwf

/-- Settles O2: encoding by encoding. Well-formedness says something of a received header alone. -/
theorem encodeOfDecodeIsTheWord : Obligations.EncodeOfDecodeIsTheWord := by
  unfold Obligations.EncodeOfDecodeIsTheWord
  intro e w i h
  cases e with
  | command =>
    obtain ⟨he, hw⟩ := encode_of_decodeCommand h
    exact ⟨Instr.wf_of_encoding_ne_rxHeader (by simp [he]), he, hw⟩
  | txHeader =>
    obtain ⟨he, hw⟩ := encode_of_decodeTxHeader h
    exact ⟨Instr.wf_of_encoding_ne_rxHeader (by simp [he]), he, hw⟩
  | rxHeader => exact encode_of_decodeRxHeader h

/-- Settles O3: by running the decoders on the words. -/
theorem specWordsDecode : Obligations.SpecWordsDecode :=
  ⟨rfl, rfl, rfl, rfl, rfl, rfl, rfl, rfl, rfl, rfl, rfl, rfl, rfl, rfl, rfl, rfl, rfl, rfl, rfl⟩

/-- A word that no command encodes to is no command (R112). -/
theorem decodeCommand_eq_error {w : Word} (h : ∀ i : Instr, i.encoding = .command → encode i ≠ w) :
    ∃ e, decodeCommand w = .error e := by
  cases hd : decodeCommand w with
  | error e => exact ⟨e, rfl⟩
  | ok i =>
    obtain ⟨he, hw⟩ := encode_of_decodeCommand hd
    exact absurd hw (h i he)

end Sys2Proof
end

section
/-! PROOFS. How a step takes its input (10_state.md R55, 30_encoding.md R113): it runs the instruction the input's word
decodes to, on its port, and a reserved command word raises ILLEGAL_CMD (R112). -/

namespace Sys2Proof.Machine

section
variable {s t : State} {x : Input} {rest : List Input} {i : Instr}

theorem step_of_fetch_run (hin : s.inputs = x :: rest) (hf : fetch x { s with inputs := rest } = .run i t) :
    step s = exec i t := by
  simp only [step, hin, hf]

theorem step_of_fetch_settled (hin : s.inputs = x :: rest) (hf : fetch x { s with inputs := rest } = .settled t) :
    step s = .next t := by
  simp only [step, hin, hf]

end

section
variable {w : Word} {i : Instr}

theorem fetch_command_ok (h : decodeCommand w = .ok i) (d : Data) (s : State) :
    fetch (.command w d) s = .run i { s with data := d } := by
  simp only [fetch, h]

theorem fetch_command_error {e : DecodeError} (h : decodeCommand w = .error e) (d : Data) (s : State) :
    fetch (.command w d) s = .settled (illegalCommand w { s with data := d }) := by
  simp only [fetch, h]

theorem fetch_txFrame_ok (h : decodeTxHeader w = .ok i) (s : State) : fetch (.txFrame w) s = .run i s := by
  simp only [fetch, h]

theorem fetch_rxFrame_ok (h : decodeRxHeader w = .ok i) (B : List Byte) (s : State) :
    fetch (.rxFrame w B) s = .run i { s with data := .bytes B } := by
  simp only [fetch, h]

end

/-- Fault entry with the reserved word as `FAULT_INFO` (R112, R346). -/
theorem illegalCommand_of_not_faulted {s : State} (h : s.faulted = false) (w : Word) :
    illegalCommand w s = { s with
      faulted := true
      faultCode := 0x01
      faultInfo := w
      events := s.events ++ [.log .error .fFault]
      resp := some ⟨.fault, .byte 0x01⟩ } := by
  have hinfo : BitVec.ofNat 32 w.toNat = w := by simp
  rw [illegalCommand, h, State.enterFault, hinfo]
  rfl

/-- Settles O5: the input's word decodes to the instruction, on the port of its encoding. -/
theorem stepRunsTheDecodedInstruction : Obligations.StepRunsTheDecodedInstruction := by
  unfold Obligations.StepRunsTheDecodedInstruction
  intro i s d B rest hwf
  refine ⟨fun he hin => ?_, fun he hin => ?_, fun he hin => ?_⟩
  · exact step_of_fetch_run hin (fetch_command_ok (decodeCommand_encode he) d _)
  · exact step_of_fetch_run hin (fetch_txFrame_ok (decodeTxHeader_encode he) _)
  · exact step_of_fetch_run hin (fetch_rxFrame_ok (decodeRxHeader_encode he hwf) B _)

/-- Settles O4: the decoder refuses the word, and what is left is fault entry. -/
theorem reservedWordRaisesIllegalCommand : Obligations.ReservedWordRaisesIllegalCommand := by
  unfold Obligations.ReservedWordRaisesIllegalCommand
  intro s w d rest hf hin hreserved
  obtain ⟨e, he⟩ := decodeCommand_eq_error hreserved
  calc step s
    _ = .next (illegalCommand w { s with inputs := rest, data := d }) :=
      step_of_fetch_settled hin (fetch_command_error he d _)
    _ = _ := congrArg _ (illegalCommand_of_not_faulted (s := { s with inputs := rest, data := d }) hf w)

/-! ### The operand on the data port (R107) -/

/-- `OPC`, the top byte of the command word (R101). -/
theorem opcodeOf_toNat (i : Instr) : (opcodeOf i).toNat = (encode i).toNat / 2 ^ 24 := by
  have := (encode i).isLt
  simp only [opcodeOf, fieldOpc, BitVec.extractLsb'_toNat, Nat.shiftRight_eq_div_pow]
  omega

/-- A command that takes only operands that fit raises DATA_RANGE with its opcode on any other (R107, R113). -/
theorem raises_dataRange_of_command {α : Type} {i : Instr} {takes : Data → Option α} {body : α → Effect} {s : State}
    (hx : exec i s = command i takes body s) (hf : s.faulted = false) (h : operandFits i s.data = false)
    (hfits : ∀ d, takes s.data = some d → operandFits i s.data = true) :
    Raises i s .dataRange ((encode i).toNat / 2 ^ 24) := by
  have hd : takes s.data = none := by
    cases hd : takes s.data with
    | none => rfl
    | some d => simp [hfits d hd] at h
  rw [raises_iff, hx, command_wrong i takes body s hf hd, opcodeOf_toNat]

theorem execRdStatus_of_not_faulted {s : State} (h : s.faulted = false) (sel : StatusSel) :
    execRdStatus sel s =
      command (.rdStatus sel) takesNothing (fun _ => .done ⟨.ok, .word (s.selectedWord sel)⟩ s) s := by
  simp [execRdStatus, h]

/-- Settles O15: by the type of operand the command takes. -/
theorem wrongDataOperandRaisesDataRange : Obligations.WrongDataOperandRaisesDataRange := by
  unfold Obligations.WrongDataOperandRaisesDataRange
  intro i s he hf h
  cases i with
  | frameTxInit | frameTxStdPoll | frameTxExtPoll | frameTxCmd | frameRxPrePoll | frameRxPreCmd | frameRxPreInit
  | frameRxCatInit | frameRxCatStd | frameRxCatExtra => cases he
  | rbPush | wrArray =>
    refine raises_dataRange_of_command rfl hf h fun B hB => ?_
    obtain ⟨hB, hlen⟩ := takesBytes_some hB
    simp [hB, hlen, operandFits]
  | wrBits | wrBytes => exact raises_dataRange_of_command rfl hf h fun n hn => by rw [takesNat_some hn]; rfl
  | encTri | encScaled | encIndex | encKeyed | encCustom | slotWrite =>
    exact raises_dataRange_of_command rfl hf h fun v hv => by rw [takesValue_some hv]; rfl
  | rdStatus sel =>
    exact raises_dataRange_of_command (execRdStatus_of_not_faulted hf sel) hf h fun _ hd => by
      rw [takesNothing_some hd]; rfl
  | _ => exact raises_dataRange_of_command rfl hf h fun _ hd => by rw [takesNothing_some hd]; rfl

end Sys2Proof.Machine
end

section
/-! PROOFS. The circular byte buffer (41_ring_buffer.md R140 to R144): each command from a ready engine, by the branch
its body takes. -/

namespace Sys2Proof.Machine

/-- Settles O16: RB_PEEK by whether the offset holds a byte, RB_POP by whether the buffer holds one. -/
theorem ringSizePeekAndPop : Obligations.RingSizePeekAndPop := by
  unfold Obligations.RingSizePeekAndPop
  intro s hs
  refine ⟨command_empty .rbSize _ s hs, fun cnt => ⟨fun hlt => ?_, fun hle => ?_⟩, fun hq => ?_, fun b rest hq => ?_⟩
  · exact (command_empty (.rbPeek cnt) _ s hs).trans (by simp only [List.getElem?_eq_getElem hlt, perform_done])
  · rw [raises_iff]
    exact (command_empty (.rbPeek cnt) _ s hs).trans (by simp only [List.getElem?_eq_none hle, perform_raise])
  · rw [raises_iff]
    exact (command_empty .rbPop _ s hs).trans (by simp only [hq, perform_raise])
  · exact (command_empty .rbPop _ s hs).trans (by simp only [hq, perform_done])

theorem opcodeOf_rbPush (cnt : BitVec 9) : opcodeOf (.rbPush cnt) = 0x02#8 := fieldOpc_encodeR _ _ _

/-- RB_PUSH with an operand of its length runs its body (R107). -/
theorem exec_rbPush {s : State} {cnt : BitVec 9} {D : List Byte} (hs : Ready s (.bytes D)) (hD : D.length = cnt.toNat) :
    exec (.rbPush cnt) s = .next (s.perform
      (if s.rbQ.length + cnt.toNat > s.cfg.rbCap.toNat then .raise .rbOverflow cnt.toNat
      else .done ⟨.ok, .empty⟩ { s with rbQ := s.rbQ ++ D })) :=
  command_run (.rbPush cnt) (takesBytes cnt.toNat) _ s D hs.1 (by rw [hs.2, takesBytes_bytes, if_pos hD])

/-- Settles O17: by the operand's length, then by the free capacity. -/
theorem ringPush : Obligations.RingPush := by
  unfold Obligations.RingPush
  intro s cnt D hs
  refine ⟨fun hD => ?_, fun hD hfits => ?_, fun hD hover => ?_⟩
  · have hnone : takesBytes cnt.toNat s.data = none := by rw [hs.2, takesBytes_bytes, if_neg hD]
    rw [raises_iff]
    exact (command_wrong (.rbPush cnt) _ _ s hs.1 hnone).trans (by rw [opcodeOf_rbPush]; rfl)
  · rw [answers_iff, exec_rbPush hs hD, if_neg (by omega), perform_done]
  · rw [raises_iff, exec_rbPush hs hD, if_pos hover, perform_raise]

/-- The bytes RB_DISCARD_UNTIL counts are those before the first marker (R144). -/
theorem countUntil_eq_length_takeWhile (mrk : Byte) (q : List Byte) :
    countUntil mrk q = (q.takeWhile (· != mrk)).length := by
  induction q with
  | nil => rfl
  | cons b bs ih =>
    by_cases hb : b = mrk
    · simp [countUntil, hb]
    · simp [countUntil, hb, ih]

/-- What is left begins at the first marker (R144). -/
theorem drop_countUntil (mrk : Byte) (q : List Byte) : q.drop (countUntil mrk q) = q.dropWhile (· != mrk) := by
  induction q with
  | nil => rfl
  | cons b bs ih =>
    by_cases hb : b = mrk
    · simp [countUntil, hb]
    · simp [countUntil, hb, ih]

/-- What is left is nothing, or begins with the marker (R144). -/
theorem dropWhile_ne_eq_nil_or_head (mrk : Byte) (q : List Byte) :
    q.dropWhile (· != mrk) = [] ∨ (q.dropWhile (· != mrk)).head? = some mrk := by
  induction q with
  | nil => exact .inl rfl
  | cons b bs ih =>
    by_cases hb : b = mrk
    · exact .inr (by simp [hb])
    · simpa [hb] using ih

/-- Settles O18: the buffer splits into the bytes before the first marker and the rest. -/
theorem ringDiscardUntil : Obligations.RingDiscardUntil := by
  unfold Obligations.RingDiscardUntil
  intro s mrk hs
  refine ⟨s.rbQ.takeWhile (· != mrk), s.rbQ.dropWhile (· != mrk), List.takeWhile_append_dropWhile.symm, fun hmem => ?_,
    dropWhile_ne_eq_nil_or_head mrk s.rbQ, ?_⟩
  · simpa using List.mem_takeWhile_imp hmem
  · rw [← countUntil_eq_length_takeWhile, ← drop_countUntil]
    exact command_empty (.rbDiscardUntil mrk) _ s hs

end Sys2Proof.Machine
end

section
/-! PROOFS. What an encoder writes is as long as the view it was given (43_codec.md R223), so storing it back stays
within the view's array (20_memory.md R70). -/

namespace Sys2Proof.Machine

section
variable {d : Slot} {V W : List Byte}

theorem encTri_length {b : Bool} (h : encTri d V b = .written W) : W.length = V.length := by
  unfold encTri at h
  split at h
  · cases h
  · cases h
    exact writeBits_length _ _ _ _ _

theorem encScaled_length {m : NumModel} {mul off q : Num} (h : encScaled m mul off d V q = .written W) :
    W.length = V.length := by
  unfold encScaled at h
  split_ifs at h
  cases h
  exact replaceAt_length _ _ _

theorem encIndex_length {table : List String} {t : String} (h : encIndex table d V t = .written W) :
    W.length = V.length := by
  unfold encIndex at h
  split at h
  · cases h
  · split at h <;> cases h
    exact writeBits_length _ _ _ _ _

theorem encKeyed_length {map : List (List Byte × String)} {t : Option String} (h : encKeyed map d V t = .written W) :
    W.length = V.length := by
  unfold encKeyed at h
  split at h
  · cases h
  · split at h <;> cases h
    exact replaceAt_length _ _ _

theorem encCustom_length {f : Option EncFn} {x : Value} (h : encCustom f V x = .written W) : W.length = V.length := by
  unfold encCustom at h
  split at h
  · cases h
  · split at h <;> cases h
    assumption

/-- An encode that writes gives the view's bytes back in their number, whatever the slot's kind. -/
theorem slotEncode_length {m : NumModel} {x : Value} (h : slotEncode m d V x = .written W) :
    W.length = V.length := by
  unfold slotEncode at h
  split at h
  · exact encTri_length h
  · exact encScaled_length h
  · exact encIndex_length h
  · exact encKeyed_length h
  · exact encKeyed_length h
  · exact encCustom_length h
  · cases h

end

end Sys2Proof.Machine
end

section
/-! PROOFS. Each operation on the state keeps the invariant: one lemma for each, which gives the components the
operation writes; the others hold of the new state as they did of the old. -/

namespace Sys2Proof

/-- Check 5 of R356. -/
theorem Config.initPayload_length_of_wf {c : Config} (h : c.wf = true) :
    c.initPayload.length = c.initLenField.toNat - 2 := by
  have hnone := c.wf_iff.1 h
  unfold Config.firstFailing at hnone
  split_ifs at hnone
  assumption

end Sys2Proof

namespace Sys2Proof.Machine

section
variable {s : State}

/-! ### What the invariant does not speak of -/

/-- The invariant does not look at `DIRTY`, `POLL_CNT`, `EXTRA_SUP`, the transports, the events, the ports, the inputs
or the count of dispatches. -/
theorem Inv.unseen (h : Inv s) {dirty : Bool} {pollCnt : BitVec 32} {extraSup : Bool}
    {priRx extRx priTx extTx : List Byte} {events : List Event} {data : Data} {resp : Option Response}
    {inputs : List Input} {dispatchCount : Nat} :
    Inv { s with
      dirty := dirty, pollCnt := pollCnt, extraSup := extraSup, priRx := priRx, extRx := extRx, priTx := priTx,
      extTx := extTx, events := events, data := data, resp := resp, inputs := inputs,
      dispatchCount := dispatchCount } :=
  { h with }

theorem Inv.respond (h : Inv s) (r : Response) : Inv (s.respond r) := h.unseen

theorem Inv.arrive (h : Inv s) (p : Port) (B : List Byte) : Inv (s.arrive p B) := by
  cases p with
  | pri => exact h.unseen
  | ext => exact h.unseen

/-! ### Reset and the fault latch (60_exceptions.md R346, R357) -/

theorem latchSound_applyReset (c : Config) (s : State) : latchSound (s.applyReset c) := by
  cases hc : c.firstFailing with
  | none => exact .inl (applyReset_latch_of_firstFailing_none hc s)
  | some k => exact .inr ⟨by simp [State.applyReset, hc], .config, by simp [State.applyReset, hc]⟩

theorem configSound_applyReset (c : Config) (s : State) : configSound (s.applyReset c) := by
  cases hc : c.firstFailing with
  | none => exact .inl (c.wf_iff.2 hc)
  | some k => exact .inr (by simp [State.applyReset, hc])

theorem inv_applyReset (c : Config) (s : State) : Inv (s.applyReset c) where
  ring := Nat.zero_le _
  timer := ⟨nofun, fun h => absurd rfl h⟩
  proxy := nofun
  boot := ⟨fun _ => ⟨rfl, rfl⟩, nofun⟩
  arrays := ⟨⟨rfl, rfl, rfl⟩, ⟨rfl, rfl, rfl⟩, Nat.zero_le _, Nat.zero_le _⟩
  frame := .inl ⟨rfl, rfl⟩
  cells := List.length_replicate
  config := configSound_applyReset c s
  latch := latchSound_applyReset c s
  attachment := id

/-- An unfaulted engine runs under a configuration that passes every check. -/
theorem Inv.cfg_wf (h : Inv s) (hf : s.faulted = false) : s.cfg.wf = true :=
  h.config.resolve_right (by simp [hf])

theorem Inv.enterFault (h : Inv s) (c : FaultCode) (info : Nat) : Inv (s.enterFault c info) :=
  { h with config := .inr rfl, latch := .inr ⟨rfl, c, rfl⟩ }

/-! ### The circular byte buffer (41_ring_buffer.md R145) -/

theorem Inv.withBuffer (h : Inv s) {q : List Byte} (hq : q.length ≤ s.cfg.rbCap.toNat) : Inv { s with rbQ := q } :=
  { h with ring := hq }

/-- Taking bytes off the buffer keeps it within its capacity. -/
theorem Inv.withShorterBuffer (h : Inv s) {q : List Byte} (hq : q.length ≤ s.rbQ.length) : Inv { s with rbQ := q } :=
  h.withBuffer (hq.trans h.ring)

/-! ### Transactions, polling and the boot timers (45_arbiter.md) -/

theorem Inv.openTxn (h : Inv s) (k : TxnState) (hk : k ≠ .idle) : Inv (s.openTxn k) :=
  { h with timer := ⟨fun _ => hk, fun _ => rfl⟩ }

theorem Inv.closeTxn (h : Inv s) : Inv s.closeTxn := { h with timer := ⟨nofun, fun hk => absurd rfl hk⟩ }

theorem Inv.freezePolls (h : Inv s) : Inv s.freezePolls :=
  { h with proxy := fun _ => rfl, boot := ⟨fun hs => ⟨(h.boot.1 hs).1, rfl⟩, fun _ => rfl⟩ }

/-- The settle timer is over (R309). -/
theorem Inv.settled (h : Inv s) : Inv { s with settleTmr := false } := { h with boot := ⟨nofun, h.boot.2⟩ }

/-- The poll-start timer starts where the settle timer ran, so polling is disabled still (R309). -/
theorem Inv.settleDone (h : Inv s) (hs : s.settleTmr = true) : Inv (settleDone s) :=
  { h with boot := ⟨nofun, fun _ => (h.boot.1 hs).2⟩, attachment := nofun }

/-- The poll-start timer is over with polling left as it was (R310). -/
theorem Inv.pstartOver (h : Inv s) : Inv { s with pstartTmr := false } :=
  { h with boot := ⟨fun hs => ⟨rfl, (h.boot.1 hs).2⟩, nofun⟩ }

/-- Polling starts where the poll-start timer ran, so the settle timer is over, and no proxy is active (R310). -/
theorem Inv.pollingStarts (h : Inv s) (hp : s.pstartTmr = true) (hx : s.proxyActive = false) {n : BitVec 32} :
    Inv { s with pstartTmr := false, pollDis := false, pollCnt := n } := by
  have hsettle : s.settleTmr ≠ true := fun hs => by simpa [hp] using (h.boot.1 hs).1
  exact { h with
    proxy := fun hx' => absurd hx' (by simp [hx])
    boot := ⟨fun hs => absurd hs hsettle, nofun⟩ }

/-! ### The cells (10_state.md R46) -/

theorem Inv.withCells (h : Inv s) {cells : List (Option Value)} (hc : cells.length = s.dedup.length) :
    Inv { s with dedup := cells } :=
  { h with cells := hc.trans h.cells }

/-! ### The arrays (20_memory.md R70) -/

theorem Inv.txbLen_le (h : Inv s) : s.txbLen ≤ frameMax := by
  obtain ⟨-, -, -, ltxb⟩ := h.arrays
  exact ltxb

/-- A write of TXB within its size. -/
theorem Inv.writeTxb (h : Inv s) {off n : Nat} {B : List Byte} (hB : off + B.length ≤ frameMax) (hn : n ≤ frameMax) :
    Inv { s with txb := s.txb.writeAll off B, txbLen := n } := by
  obtain ⟨⟨wfb, wtxb, wpcb⟩, ⟨ffb, ftxb, fpcb⟩, lfb, -⟩ := h.arrays
  exact { h with
    arrays := ⟨⟨wfb, Memory.wf_writeAll B off wtxb, wpcb⟩, ⟨ffb, Memory.fits_writeAll B hB ftxb, fpcb⟩, lfb, hn⟩ }

/-- PCB in canonical form and within its size. -/
theorem Inv.withPcb (h : Inv s) {m : Memory} (hwf : m.wf = true) (hfits : m.fits s.cfg.cmdN = true) :
    Inv { s with pcb := m } := by
  obtain ⟨⟨wfb, wtxb, -⟩, ⟨ffb, ftxb, -⟩, lfb, ltxb⟩ := h.arrays
  exact { h with arrays := ⟨⟨wfb, wtxb, hwf⟩, ⟨ffb, ftxb, hfits⟩, lfb, ltxb⟩ }

/-- A store within a view stays within the view's array. -/
theorem Inv.store (h : Inv s) {v : View} {off : Nat} {B : List Byte} (hB : off + B.length ≤ (s.view v).length) :
    Inv (s.store v off B) := by
  obtain ⟨⟨-, -, wpcb⟩, ⟨-, -, fpcb⟩, -⟩ := h.arrays
  cases v with
  | v0 => exact h
  | v3 => exact h
  | v1 =>
    rw [view_v1_length] at hB
    exact h.withPcb (Memory.wf_writeAll B off wpcb) (Memory.fits_writeAll B hB fpcb)
  | v2 =>
    rw [view_v2_length] at hB
    exact h.writeTxb (hB.trans h.txbLen_le) h.txbLen_le

theorem Inv.build (h : Inv s) {data : List Byte} (hd : data.length ≤ 253) (pre cat : Byte) :
    Inv (build s pre cat data) :=
  h.writeTxb (by rw [frameBytes_length, frameMax]; omega) (by rw [frameMax]; omega)

/-! ### The frames HPFE builds (44_frame.md R253 to R257): a length field is a byte, so the data is at most 253 bytes -/

theorem Inv.serInitBody (h : Inv s) (hf : s.faulted = false) : Inv (serInitBody s) :=
  h.build (by rw [Config.initPayload_length_of_wf (h.cfg_wf hf)]; omega) _ _

theorem zeros_length_le (L : Byte) : (zeros (L.toNat - 2)).length ≤ 253 := by
  rw [zeros, List.length_replicate]
  omega

theorem Inv.serStdBody (h : Inv s) : Inv (serStdBody s) := h.build (zeros_length_le _) _ _

theorem Inv.serExtBody (h : Inv s) : Inv (serExtBody s) := h.build (zeros_length_le _) _ _

theorem Inv.serCmdBody (h : Inv s) : Inv (serCmdBody s) := h.build (by rw [view_v1_length, Config.cmdN]; omega) _ _

theorem Inv.sendTxb (h : Inv s) : Inv (sendTxb s) := h.unseen

/-! ### The parser (44_frame.md R244 to R248) -/

theorem acceptFrame_view_v3 (s : State) (F : List Byte) : (acceptFrame s F).view .v3 = F :=
  Memory.slice_writeAll s.fb 0 F

/-- An accepted frame is one that R34 describes, and fits FB. -/
theorem Inv.acceptFrame (h : Inv s) {F : List Byte} (hsum : sum8 F = 0) (hlen : F.length = (byteAt F 1).toNat + 3)
    (hmin : s.cfg.minPacketSize < (byteAt F 1).toNat) : Inv (acceptFrame s F) := by
  obtain ⟨⟨wfb, wtxb, wpcb⟩, ⟨ffb, ftxb, fpcb⟩, -, ltxb⟩ := h.arrays
  have hmax : F.length ≤ frameMax := by rw [frameMax]; omega
  exact { h with
    arrays := ⟨⟨Memory.wf_writeAll F 0 wfb, wtxb, wpcb⟩,
      ⟨Memory.fits_writeAll F (by omega) ffb, ftxb, fpcb⟩, hmax, ltxb⟩
    frame := .inr (by
      rw [acceptFrame_view_v3]
      exact ⟨hsum, hlen, show s.cfg.minPacketSize + 3 < F.length by omega, rfl⟩) }

theorem Inv.finishFrame (h : Inv s) {F : List Byte} (hlen : F.length = (byteAt F 1).toNat + 3)
    (hmin : s.cfg.minPacketSize < (byteAt F 1).toNat) : Inv (finishFrame s F).2 := by
  unfold Machine.finishFrame
  split
  · exact h.unseen
  · next hsum => exact h.acceptFrame (not_not.1 hsum) hlen hmin

theorem Inv.parseAligned (h : Inv s) {q : List Byte} (hq : q.length ≤ s.rbQ.length) : Inv (parseAligned s q).2 := by
  have hdrop (n : Nat) : (q.drop n).length ≤ s.rbQ.length := by rw [List.length_drop]; omega
  unfold Machine.parseAligned
  split_ifs with hshort hbad hmore
  · exact h.withShorterBuffer hq
  · exact (h.withShorterBuffer (hdrop _)).unseen
  · exact h.withShorterBuffer hq
  · have hfield : byteAt (q.take ((byteAt q 1).toNat + 3)) 1 = byteAt q 1 := byteAt_subseq q 0 _ 1 (by omega)
    refine (h.withShorterBuffer (hdrop _)).finishFrame ?_ ?_
    · rw [hfield, List.length_take]
      omega
    · rw [hfield]
      exact Nat.lt_of_not_le hbad

theorem align_length_le (c : Config) (q : List Byte) : (align c q).length ≤ q.length :=
  (List.dropWhile_suffix _).length_le

theorem Inv.parseBody (h : Inv s) : Inv (parseBody s).2 := by
  unfold Machine.parseBody
  split
  · exact h.withShorterBuffer (Nat.zero_le _)
  · exact h.parseAligned (align_length_le _ _)

/-! ### Notification and dispatch (43_codec.md R226, 45_arbiter.md R297) -/

theorem Inv.notifySlot (h : Inv s) (n : Nat) (d : Slot) : Inv (notifySlot s n d) :=
  (h.withCells List.length_set).unseen

theorem cellAfter_length (s : State) (c : FrameClass) (cells : List (Option Value)) (n : Nat) :
    (cellAfter s c cells n).length = cells.length := by
  unfold cellAfter
  split
  · rfl
  · exact List.length_set

theorem foldl_cellAfter_length (s : State) (c : FrameClass) (slots : List Nat) (cells : List (Option Value)) :
    (slots.foldl (cellAfter s c) cells).length = cells.length := by
  induction slots generalizing cells with
  | nil => rfl
  | cons n slots ih => rw [List.foldl_cons, ih, cellAfter_length]

theorem Inv.dispatchBody (h : Inv s) : Inv (dispatchBody s).2 := by
  unfold Machine.dispatchBody
  split
  · exact (h.withCells (foldl_cellAfter_length s _ _ _)).unseen
  · exact h

/-! ### The three bodies of a tick (45_arbiter.md R300 to R304) -/

/-- The batch is no longer than the free capacity (R302). -/
theorem Inv.takeBatch (h : Inv s) : Inv (takeBatch s) := by
  have hring : s.rbQ.length ≤ s.cfg.rbCap.toNat := h.ring
  have hlen : (s.rbQ ++ s.priRx.take (priBatch s)).length ≤ s.cfg.rbCap.toNat := by
    rw [List.length_append, List.length_take, priBatch]
    omega
  exact (h.withBuffer hlen).unseen

theorem Inv.afterParse {p : Response × State} (h : Inv p.2) : Inv (afterParse p).2 := by
  unfold Machine.afterParse
  split
  · exact h.dispatchBody.closeTxn
  · exact h

theorem Inv.rxPriBody (h : Inv s) : Inv (rxPriBody s).2 := h.takeBatch.parseBody.afterParse

theorem Inv.forwardExt (h : Inv s) : Inv (forwardExt s) := h.unseen

theorem Inv.contendExt (h : Inv s) : Inv (contendExt s) := by
  unfold Machine.contendExt
  split
  · exact h.unseen
  · exact h

theorem Inv.rxExtBody (h : Inv s) : Inv (rxExtBody s).2 := by
  unfold Machine.rxExtBody
  split
  · exact h
  · split
    · exact (h.openTxn .external nofun).freezePolls.forwardExt
    · exact h.forwardExt
    · exact h.contendExt

theorem Inv.flushBody (h : Inv s) : Inv (flushBody s).2 := by
  unfold Machine.flushBody
  split_ifs
  · exact h
  · exact h
  · exact ((h.openTxn .internal nofun).serCmdBody.sendTxb.withPcb (m := []) rfl rfl).unseen

theorem Inv.loopBody (h : Inv s) : Inv (loopBody s).2 := h.rxPriBody.rxExtBody.flushBody

/-! ### Polls (45_arbiter.md R306) and received frames (log 8) -/

theorem Inv.sendPoll (h : Inv s) : Inv (sendPoll s) := by
  have hopen : Inv (s.openTxn .internal) := h.openTxn .internal nofun
  unfold Machine.sendPoll
  split
  · exact hopen.serExtBody.sendTxb.unseen
  · exact hopen.serStdBody.sendTxb.unseen

theorem Inv.receiveBytes (h : Inv s) (F : List Byte) : Inv (receiveBytes F s) := by
  unfold Machine.receiveBytes
  split
  · exact (h.arrive .pri F).respond _
  · exact (h.arrive .pri F).rxPriBody.respond _

end

end Sys2Proof.Machine
end

section
/-! PROOFS. The invariant is inductive: every instruction keeps it, and so does every way a step takes its input. A body
is followed through its checks to the states it leaves, with the outcome of each check at hand. -/

namespace Sys2Proof.Machine

/-! ### What an effect leaves -/

/-- Where the body of a command ends in a response, the state it leaves meets `P`. Beside `Effect.Keeps`, which compares
that state with the first one, its rule for a check hands on what the check found. -/
inductive Effect.Leaves (P : State → Prop) : Effect → Prop
  | done {r : Response} {t : State} (h : P t) : Effect.Leaves P (.done r t)
  | raise {c : FaultCode} {info : Nat} : Effect.Leaves P (.raise c info)

section
variable {P : State → Prop}

theorem Effect.Leaves.ite {p : Prop} [Decidable p] {a b : Effect} (ha : p → a.Leaves P) (hb : ¬ p → b.Leaves P) :
    (if p then a else b).Leaves P := by
  split
  · next hp => exact ha hp
  · next hp => exact hb hp

/-- The form of a check: it raises its fault, or the body goes on. -/
theorem Effect.Leaves.check {p : Prop} [Decidable p] {c : FaultCode} {info : Nat} {b : Effect}
    (hb : ¬ p → b.Leaves P) : (if p then .raise c info else b).Leaves P := .ite (fun _ => .raise) hb

theorem Effect.Leaves.whenWritable {v : View} {body : Effect} (h : body.Leaves P) : (whenWritable v body).Leaves P :=
  .check fun _ => h

theorem Effect.Leaves.whenKind {k : Kind} {slot : BitVec 8} {d : Slot} {body : Effect} (h : body.Leaves P) :
    (whenKind k slot d body).Leaves P := .ite (fun _ => h) fun _ => .raise

theorem Effect.Leaves.whenTakes {slot : BitVec 8} {d : Slot} {v : Value} {body : Effect} (h : body.Leaves P) :
    (whenTakes slot d v body).Leaves P := .ite (fun _ => h) fun _ => .raise

theorem Effect.Leaves.withSlot {u : State} {slot : BitVec 8} {body : Slot → Effect} (h : ∀ d, (body d).Leaves P) :
    (withSlot u slot body).Leaves P := by
  unfold Machine.withSlot
  split
  · exact .raise
  · exact h _

end

/-! ### Every instruction keeps the invariant -/

section
variable {s t : State}

/-- A command keeps the invariant where its body does, run unfaulted and with an operand of its type. -/
theorem Inv.command {α : Type} {i : Instr} {takes : Data → Option α} {body : α → Effect} (h : Inv s)
    (hx : command i takes body s = .next t)
    (hb : s.faulted = false → ∀ d, takes s.data = some d → (body d).Leaves Inv) : Inv t := by
  obtain ⟨-, rfl⟩ | ⟨-, -, rfl⟩ | ⟨hf, d, hd, ⟨r, u, hu, rfl⟩ | ⟨c, info, -, rfl⟩⟩ := command_cases hx
  · exact h.respond _
  · exact h.enterFault _ _
  · have hleaves : (Effect.done r u).Leaves Inv := hu ▸ hb hf d hd
    cases hleaves with
    | done hinv => exact hinv.respond r
  · exact h.enterFault _ _

theorem Inv.decodeSlot (h : Inv s) (k : Kind) (v : View) (slot : BitVec 8) : (decodeSlot k v slot s).Leaves Inv :=
  .withSlot fun _ => .whenKind (.done h.unseen)

theorem Inv.encodeSlot (h : Inv s) (k : Kind) (v : View) (slot : BitVec 8) (x : Value) :
    (encodeSlot k v slot x s).Leaves Inv := by
  refine .withSlot fun d => .whenKind (.whenWritable (.whenTakes ?_))
  cases he : slotEncode s.cfg.num d (s.view v) x with
  | written V => exact .done (h.store (by rw [Nat.zero_add, slotEncode_length he]))
  | noEffect logs => exact .done h.unseen
  | fails c => exact .raise

theorem Inv.slotWrite (h : Inv s) (slot : BitVec 8) (d : Slot) (x : Value) :
    (slotWriteEffect slot s (slotEncode s.cfg.num d (s.view .v1) x)).Leaves Inv := by
  cases he : slotEncode s.cfg.num d (s.view .v1) x with
  | written V =>
    have hstore : Inv (s.store .v1 0 V) := h.store (by rw [Nat.zero_add, slotEncode_length he])
    exact .done hstore.unseen
  | noEffect logs => exact .done h.unseen
  | fails c => exact .raise

theorem Inv.transmitFrame {body : State → State} (h : Inv s) (hx : transmitFrame body s = .next t)
    (hb : s.faulted = false → Inv (body s)) : Inv t := by
  unfold Machine.transmitFrame at hx
  split at hx <;> cases hx
  · exact h.respond _
  · next hf => exact (hb (by simpa using hf)).respond _

/-- EVERY INSTRUCTION KEEPS THE INVARIANT. -/
theorem Inv.exec {i : Instr} (h : Inv s) (hx : exec i s = .next t) : Inv t := by
  cases i with
  | nop | rbSize | ckChk => exact h.command hx fun _ _ _ => .done h
  | rbPush cnt =>
    refine h.command hx fun _ D hD => .check fun hfits => .done (h.withBuffer ?_)
    rw [List.length_append, (takesBytes_some hD).2]
    exact Nat.le_of_not_lt hfits
  | rbPeek =>
    refine h.command hx fun _ _ _ => ?_
    split
    · exact .raise
    · exact .done h
  | rbPop =>
    refine h.command hx fun _ _ _ => ?_
    split
    · exact .raise
    · next b rest hq => exact .done (h.withShorterBuffer (by rw [hq]; exact Nat.le_succ _))
  | rbDiscardUntil =>
    exact h.command hx fun _ _ _ => .done (h.withShorterBuffer (by rw [List.length_drop]; exact Nat.sub_le _ _))
  | rdBits | rdBytes | rdArray => exact h.command hx fun _ _ _ => .check fun _ => .check fun _ => .done h
  | wrBits =>
    exact h.command hx fun _ _ _ =>
      .whenWritable (.check fun _ => .check fun hin => .check fun _ => .done (h.store (Nat.le_of_not_lt hin)))
  | wrBytes =>
    exact h.command hx fun _ _ _ =>
      .whenWritable (.check fun _ => .check fun hin => .check fun _ =>
        .done (h.store (by rw [leBytes_length]; exact Nat.le_of_not_lt hin)))
  | wrArray =>
    exact h.command hx fun _ D hD =>
      .whenWritable (.check fun _ => .check fun hin =>
        .done (h.store (by rw [(takesBytes_some hD).2]; exact Nat.le_of_not_lt hin)))
  | decTri v slot | decScaled v slot | decIndex v slot | decKeyed v slot | decCustom v slot =>
    exact h.command hx fun _ _ _ => h.decodeSlot _ v slot
  | encTri v slot | encScaled v slot | encIndex v slot | encKeyed v slot | encCustom v slot =>
    exact h.command hx fun _ x _ => h.encodeSlot _ v slot x
  | slotNotify slot =>
    exact h.command hx fun _ _ _ => .withSlot fun d => .check fun _ => .done (h.notifySlot slot.toNat d)
  | slotWrite slot =>
    exact h.command hx fun _ x _ => .withSlot fun d => .check fun _ => .whenTakes (h.slotWrite slot d x)
  | parse => exact h.command hx fun _ _ _ => .done h.parseBody
  | ckGen =>
    refine h.command hx fun _ _ _ => .check fun hlen => .done ?_
    have hmax := h.txbLen_le
    exact h.writeTxb (off := s.txbLen - 1) (B := [_]) (by rw [List.length_singleton]; omega) hmax
  | serInit => exact h.command hx fun hf _ _ => .done (h.serInitBody hf)
  | serStd => exact h.command hx fun _ _ _ => .done h.serStdBody
  | serExt => exact h.command hx fun _ _ _ => .done h.serExtBody
  | serCmd => exact h.command hx fun _ _ _ => .done h.serCmdBody
  | txSend => exact h.command hx fun _ _ _ => .ite (fun _ => .done h) fun _ => .done h.sendTxb
  | txnStartInt =>
    exact h.command hx fun _ _ _ => .ite (fun _ => .done (h.openTxn .internal nofun)) fun _ => .done h.unseen
  | txnStartExt =>
    exact h.command hx fun _ _ _ =>
      .ite (fun _ => .done (h.openTxn .external nofun).freezePolls) fun _ => .done h.unseen
  | txnStop => exact h.command hx fun _ _ _ => .done h.closeTxn
  | dispatch => exact h.command hx fun _ _ _ => .done h.dispatchBody
  | rxPri => exact h.command hx fun _ _ _ => .done h.rxPriBody
  | rxExt => exact h.command hx fun _ _ _ => .done h.rxExtBody
  | flush => exact h.command hx fun _ _ _ => .done h.flushBody
  | rdStatus sel =>
    change execRdStatus sel s = .next t at hx
    unfold execRdStatus at hx
    split at hx
    · cases hx
      exact h.respond _
    · exact h.command hx fun _ _ _ => .done h
  | evLoop => exact h.command hx fun _ _ _ => .done h.loopBody
  | evUpdate =>
    exact h.command hx fun _ _ _ =>
      .ite (fun _ => .done h) fun _ => .ite (fun _ => .done h.unseen) fun _ => .done h.sendPoll
  | evTimeout => exact h.command hx fun _ _ _ => .ite (fun _ => .done h) fun _ => .done h.closeTxn.unseen
  | evSettle =>
    refine h.command hx fun hf _ _ => .ite (fun _ => .done h) fun hs => ?_
    have hdone : Inv (Machine.settleDone s) := h.settleDone (by simpa using hs)
    exact .ite (fun _ => .done h.settled) fun _ =>
      .ite (fun _ => .done hdone.unseen) fun _ => .done ((hdone.openTxn .internal nofun).serInitBody hf).sendTxb
  | evPstart =>
    refine h.command hx fun _ _ _ => .ite (fun _ => .done h) fun hp => ?_
    exact .ite (fun _ => .done h.pstartOver) fun hproxy =>
      .done (h.pollingStarts (by simpa using hp) (by simpa using hproxy))
  | frameTxInit => exact h.transmitFrame hx h.serInitBody
  | frameTxStdPoll => exact h.transmitFrame hx fun _ => h.serStdBody
  | frameTxExtPoll => exact h.transmitFrame hx fun _ => h.serExtBody
  | frameTxCmd => exact h.transmitFrame hx fun _ => h.serCmdBody
  | frameRxPrePoll | frameRxPreCmd | frameRxPreInit | frameRxCatInit | frameRxCatStd | frameRxCatExtra =>
    cases hx
    exact h.receiveBytes _

/-! ### Every step keeps the invariant -/

/-- The state taking an input comes to, before its instruction runs. -/
def Fetched.state : Fetched → State
  | .run _ u => u
  | .settled u => u

theorem Inv.illegalCommand (h : Inv s) (w : Word) : Inv (illegalCommand w s) := by
  unfold Machine.illegalCommand
  split
  · exact h.respond _
  · exact h.enterFault _ _

theorem fetch_txFrame_error {w : Word} {e : DecodeError} (hd : decodeTxHeader w = .error e) (s : State) :
    fetch (.txFrame w) s = .settled s := by
  simp only [fetch, hd]

theorem fetch_rxFrame_error {w : Word} {e : DecodeError} (hd : decodeRxHeader w = .error e) (B : List Byte)
    (s : State) : fetch (.rxFrame w B) s = .settled (receiveBytes (headerBytes w ++ B) s) := by
  simp only [fetch, hd]

/-- Taking an input keeps the invariant. -/
theorem Inv.fetch (h : Inv s) (x : Input) : Inv (fetch x s).state := by
  cases x with
  | command w d =>
    cases hd : decodeCommand w with
    | ok i => rw [fetch_command_ok hd]; exact h.unseen
    | error e =>
      rw [fetch_command_error hd]
      exact Inv.illegalCommand h.unseen w
  | txFrame w =>
    cases hd : decodeTxHeader w with
    | ok i => rw [fetch_txFrame_ok hd]; exact h
    | error e => rw [fetch_txFrame_error hd]; exact h
  | rxFrame w B =>
    cases hd : decodeRxHeader w with
    | ok i => rw [fetch_rxFrame_ok hd]; exact h.unseen
    | error e => rw [fetch_rxFrame_error hd]; exact h.receiveBytes _
  | arrive p B => exact h.arrive p B
  | reset c => exact inv_applyReset c s

end

/-- Settles O11: the input is taken and its instruction run, and both keep the invariant. -/
theorem stepKeepsTheInvariant : Obligations.StepKeepsTheInvariant := by
  unfold Obligations.StepKeepsTheInvariant
  intro s t h hx
  cases hin : s.inputs with
  | nil =>
    obtain rfl : s = t := by simpa [step, hin] using hx
    exact h
  | cons x rest =>
    have hqueue : Inv { s with inputs := rest } := h.unseen
    have hfetch := hqueue.fetch x
    cases hf : fetch x { s with inputs := rest } with
    | run i u =>
      rw [hf] at hfetch
      rw [step_of_fetch_run hin hf] at hx
      exact Inv.exec hfetch hx
    | settled u =>
      rw [hf] at hfetch
      obtain rfl : u = t := by simpa [step_of_fetch_settled hin hf] using hx
      exact hfetch

end Sys2Proof.Machine
end

section
/-! PROOFS. The bit-field primitives (42_bitfield.md R160 to R166): each command from a ready engine, by the first of its
checks that fails, in the order of its pseudocode. A write is what `State.store` does to the view. -/

namespace Sys2Proof

/-! ### Fields and byte sequences as the primitives read them -/

/-- The field just written reads back as its value (R160). -/
theorem readField_writeField (b v : Byte) {bit width : Nat} (h : wellShaped bit width = true)
    (hv : v.toNat < 2 ^ width) : readField (writeField b bit width v) bit width = v := by
  rw [wellShaped_iff] at h
  have hsh : fieldShift bit width + width ≤ 8 := by
    rw [fieldShift]
    omega
  refine BitVec.eq_of_getLsbD_eq fun j hj => ?_
  rw [readField_getLsbD]
  by_cases hw : j < width
  · rw [writeField_getLsbD b v bit width _ hv (by omega), if_pos ⟨by omega, by omega⟩]
    simp [hj, hw]
  · have hz : v.getLsbD j = false :=
      Nat.testBit_lt_two_pow (hv.trans_le (Nat.pow_le_pow_right (by omega) (Nat.le_of_not_lt hw)))
    simp [hw, hz]

/-- A value that fits in a field of a byte is a byte (R162). -/
theorem toNat_ofNat_of_fits {bit width D : Nat} (h : wellShaped bit width = true) (hD : D < 2 ^ width) :
    (BitVec.ofNat 8 D).toNat = D := by
  rw [wellShaped_iff] at h
  have : 2 ^ width ≤ 2 ^ 8 := Nat.pow_le_pow_right (by omega) (by omega)
  rw [BitVec.toNat_ofNat, Nat.mod_eq_of_lt (by omega)]

/-- The byte sequence RD_ARRAY returns, byte by byte (R165). -/
theorem subseq_eq_map {B : List Byte} {off n : Nat} (h : off + n ≤ B.length) :
    subseq B off n = (List.range n).map (fun i => byteAt B (off + i)) := by
  refine List.ext_getElem (by simp [h]) fun i _ hi => ?_
  have hi : i < n := by simpa using hi
  simp [subseq, byteAt, show off + i < B.length by omega]

/-- The number RD_BYTES returns, byte by byte (R163). -/
theorem le_subseq {B : List Byte} {off n : Nat} (h : off + n ≤ B.length) :
    le (subseq B off n) = ((List.range n).map (fun i => (byteAt B (off + i)).toNat * 256 ^ i)).sum := by
  rw [le_eq_sum, subseq_length B off n h]
  refine congrArg List.sum (List.map_congr_left fun i hi => ?_)
  rw [byteAt_subseq B off n i (List.mem_range.1 hi)]

theorem two_pow_eight_mul (n : Nat) : 2 ^ (8 * n) = 256 ^ n := Nat.pow_mul 2 8 n

end Sys2Proof

namespace Sys2Proof.Machine

/-! ### A view after a store, and a command from a ready engine -/

@[simp] theorem State.store_faulted (s : State) (v : View) (off : Nat) (B : List Byte) :
    (s.store v off B).faulted = s.faulted := by cases v <;> rfl

/-- The data port is no part of a view (R71). -/
@[simp] theorem view_setData (s : State) (d : Data) (v : View) : ({ s with data := d } : State).view v = s.view v := by
  cases v <;> rfl

/-- A writable view reads as stored, and outside the stored bytes as before (R15, R71). -/
theorem byteAt_view_store {s : State} {v : View} (hv : readOnly v = false) (off : Nat) (B : List Byte) {i : Nat}
    (hi : i < (s.view v).length) :
    byteAt ((s.store v off B).view v) i =
      if off ≤ i ∧ i < off + B.length then byteAt B (i - off) else byteAt (s.view v) i := by
  cases v with
  | v0 | v3 => cases hv
  | v1 =>
    rw [view_v1_length] at hi
    rw [byteAt_view_v1 s hi, byteAt_view_v1 (s.store .v1 off B) hi]
    exact Memory.read_writeAll B s.pcb off i
  | v2 =>
    rw [view_v2_length] at hi
    rw [byteAt_view_v2 s hi, byteAt_view_v2 (s.store .v2 off B) hi]
    exact Memory.read_writeAll B s.txb off i

section
variable {α : Type} {i : Instr} {takes : Data → Option α} {body : α → Effect} {s t : State} {d : Data} {x : α}
variable {c : FaultCode} {info : Nat} {r : Response}

/-- A command that takes its operand raises the fault its body ends in (R113). -/
theorem raises_of_body (hx : exec i s = command i takes body s) (hs : Ready s d) (hd : takes d = some x)
    (hb : body x = .raise c info) : Raises i s c info := by
  obtain ⟨hf, rfl⟩ := hs
  rw [raises_iff, hx, command_run i takes body s x hf hd, hb, perform_raise]

/-- A command that takes its operand answers what its body ends in (R113). -/
theorem answers_of_body (hx : exec i s = command i takes body s) (hs : Ready s d) (hd : takes d = some x)
    (hb : body x = .done r t) : Answers i s r t := by
  obtain ⟨hf, rfl⟩ := hs
  rw [answers_iff, hx, command_run i takes body s x hf hd, hb, perform_done]

end

/-! ### Bits (R161, R162) -/

section
variable {s : State} {v : View} {off : BitVec 9} {bit : BitVec 4} {w : BitVec 6}

theorem answers_rdBits (hs : Ready s .empty) (hshape : wellShaped bit.toNat w.toNat = true)
    (hoff : off.toNat < (s.view v).length) :
    Answers (.rdBits v off bit w) s
      ⟨.ok, .word ((readBits (s.view v) off.toNat bit.toNat w.toNat).setWidth 32)⟩ s :=
  answers_of_body rfl hs rfl ((if_neg (not_not.2 hshape)).trans (if_neg (by omega)))

/-- The byte WR_BITS stores (R162). -/
def writtenByte (s : State) (v : View) (off : BitVec 9) (bit : BitVec 4) (w : BitVec 6) (D : Nat) : Byte :=
  writeField (byteAt (s.view v) off.toNat) bit.toNat w.toNat (BitVec.ofNat 8 D)

theorem answers_wrBits {D : Nat} (hs : Ready s (.nat D)) (hv : readOnly v = false)
    (hshape : wellShaped bit.toNat w.toNat = true) (hoff : off.toNat < (s.view v).length) (hD : D < 2 ^ w.toNat) :
    Answers (.wrBits v off bit w) s ⟨.ok, .empty⟩ (s.store v off.toNat [writtenByte s v off bit w D]) :=
  answers_of_body rfl hs rfl ((whenWritable_of_writable hv _).trans
    ((if_neg (not_not.2 hshape)).trans ((if_neg (by omega)).trans (if_neg (by omega)))))

/-- Inside the field the byte has the value's bits, and outside it the bits it had (R162). -/
theorem writtenByte_getLsbD {D j : Nat} (hshape : wellShaped bit.toNat w.toNat = true) (hD : D < 2 ^ w.toNat)
    (hj : j < 8) :
    (writtenByte s v off bit w D).getLsbD j =
      if 9 - bit.toNat - w.toNat ≤ j ∧ j < 9 - bit.toNat then D.testBit (j - (9 - bit.toNat - w.toNat))
      else (byteAt (s.view v) off.toNat).getLsbD j := by
  have hend : fieldShift bit.toNat w.toNat + w.toNat = 9 - bit.toNat := by
    rw [wellShaped_iff] at hshape
    rw [fieldShift]
    omega
  rw [writtenByte, writeField_getLsbD _ _ _ _ _ (by rwa [toNat_ofNat_of_fits hshape hD]) hj, hend, fieldShift,
    BitVec.getLsbD_ofNat, decide_eq_true (by omega), Bool.true_and]

/-- RD_BITS of the field WR_BITS has written answers its value (R162). -/
theorem answers_rdBits_of_written {D : Nat} (hs : s.faulted = false) (hv : readOnly v = false)
    (hshape : wellShaped bit.toNat w.toNat = true) (hoff : off.toNat < (s.view v).length) (hD : D < 2 ^ w.toNat) :
    Answers (.rdBits v off bit w) { s.store v off.toNat [writtenByte s v off bit w D] with data := .empty }
      ⟨.ok, .word (BitVec.ofNat 32 D)⟩
      { s.store v off.toNat [writtenByte s v off bit w D] with data := .empty } := by
  have hfits := toNat_ofNat_of_fits hshape hD
  have hbyte : byteAt ((s.store v off.toNat [writtenByte s v off bit w D]).view v) off.toNat =
      writtenByte s v off bit w D := by
    rw [byteAt_view_store hv _ _ hoff, if_pos ⟨le_rfl, by simp⟩, Nat.sub_self]
    rfl
  have hread : (readBits ((s.store v off.toNat [writtenByte s v off bit w D]).view v) off.toNat bit.toNat
      w.toNat).setWidth 32 = BitVec.ofNat 32 D := by
    rw [readBits, hbyte, writtenByte, readField_writeField _ _ hshape (by rwa [hfits]), ← BitVec.ofNat_toNat, hfits]
  have h := answers_rdBits (s := { s.store v off.toNat [writtenByte s v off bit w D] with data := .empty })
    (v := v) (off := off) ⟨by simpa using hs, rfl⟩ hshape (by rwa [view_setData, store_view_length])
  rwa [view_setData, hread] at h

end

/-! The two theorems have the names of the functions of R160, so they stand in a namespace of their own. -/

namespace BitField

/-- Settles O19: by the shape of the field, then by the bound of the view. -/
theorem readBits : Obligations.ReadBits := by
  unfold Obligations.ReadBits
  intro s v off bit w hs
  simp only [← wellShaped_iff]
  refine ⟨fun hshape => ?_, fun hshape hoff => ?_, fun hshape hoff => ?_⟩
  · exact raises_of_body rfl hs rfl (if_pos hshape)
  · exact raises_of_body rfl hs rfl ((if_neg (not_not.2 hshape)).trans (if_pos (by omega)))
  · have hw : w.toNat ≤ 8 := by
      rw [wellShaped_iff] at hshape
      omega
    have h := answers_rdBits hs hshape hoff
    rwa [Sys2Proof.readBits, ← BitVec.ofNat_toNat, readField_toNat _ _ _ hw, fieldShift] at h

/-- Settles O20: by permission, shape, bound and value; the write stores one byte, and the field reads back from it. -/
theorem writeBits : Obligations.WriteBits := by
  unfold Obligations.WriteBits
  intro s v off bit w D hs
  simp only [← wellShaped_iff]
  refine ⟨fun hv => ?_, fun hv hshape => ?_, fun hv hshape => ⟨fun hoff => ?_, fun hoff hD => ?_, fun hoff hD => ?_⟩⟩
  · exact raises_of_body rfl hs rfl (whenWritable_of_readOnly hv _)
  · exact raises_of_body rfl hs rfl ((whenWritable_of_writable hv _).trans (if_pos hshape))
  · exact raises_of_body rfl hs rfl ((whenWritable_of_writable hv _).trans
      ((if_neg (not_not.2 hshape)).trans (if_pos (by omega))))
  · exact raises_of_body rfl hs rfl ((whenWritable_of_writable hv _).trans
      ((if_neg (not_not.2 hshape)).trans ((if_neg (by omega)).trans (if_pos hD))))
  · exact ⟨s.store v off.toNat [writtenByte s v off bit w D], writtenByte s v off bit w D,
      answers_wrBits hs hv hshape hoff hD, stored_store s _ _ hv, fun j hj => writtenByte_getLsbD hshape hD hj,
      answers_rdBits_of_written hs.1 hv hshape hoff hD⟩

end BitField

/-! ### Bytes and arrays (R163 to R166) -/

/-- Settles O21: by the shape, then by the bound of the view, for the number and for the array. -/
theorem readBytesAndArrays : Obligations.ReadBytesAndArrays := by
  unfold Obligations.ReadBytesAndArrays
  intro s v off w hs
  refine ⟨fun hw => ?_, fun hw hlen => ?_, fun hw hlen => ?_, fun hw => ?_, fun hw hlen => ?_, fun hw hlen => ?_⟩
  · exact raises_of_body rfl hs rfl (if_pos hw)
  · exact raises_of_body rfl hs rfl ((if_neg (not_not.2 hw)).trans (if_pos hlen))
  · rw [← le_subseq hlen]
    exact answers_of_body rfl hs rfl ((if_neg (not_not.2 hw)).trans (if_neg (by omega)))
  · exact raises_of_body rfl hs rfl (if_pos hw)
  · exact raises_of_body rfl hs rfl ((if_neg (by omega)).trans (if_pos hlen))
  · rw [← subseq_eq_map hlen]
    exact answers_of_body rfl hs rfl ((if_neg (by omega)).trans (if_neg (by omega)))

/-- Settles O22: by permission, shape, bound and value. -/
theorem writeBytes : Obligations.WriteBytes := by
  unfold Obligations.WriteBytes
  intro s v off w D hs
  simp only [← leBytes_eq_map]
  rw [← two_pow_eight_mul]
  refine ⟨fun hv => ?_, fun hv hw => ?_, fun hv hw => ⟨fun hlen => ?_, fun hlen hD => ?_, fun hlen hD => ?_⟩⟩
  · exact raises_of_body rfl hs rfl (whenWritable_of_readOnly hv _)
  · exact raises_of_body rfl hs rfl ((whenWritable_of_writable hv _).trans (if_pos hw))
  · exact raises_of_body rfl hs rfl ((whenWritable_of_writable hv _).trans
      ((if_neg (not_not.2 hw)).trans (if_pos hlen)))
  · exact raises_of_body rfl hs rfl ((whenWritable_of_writable hv _).trans
      ((if_neg (not_not.2 hw)).trans ((if_neg (by omega)).trans (if_pos hD))))
  · exact ⟨s.store v off.toNat (leBytes D w.toNat), answers_of_body rfl hs rfl ((whenWritable_of_writable hv _).trans
      ((if_neg (not_not.2 hw)).trans ((if_neg (by omega)).trans (if_neg (by omega))))), stored_store s _ _ hv⟩

theorem opcodeOf_wrArray (v : View) (off : BitVec 9) (w : BitVec 6) : opcodeOf (.wrArray v off w) = 0x15#8 :=
  fieldOpc_encodeB _ _ _ _ _

/-- Settles O23: by the operand's length, then by permission, shape and bound. -/
theorem writeArray : Obligations.WriteArray := by
  unfold Obligations.WriteArray
  intro s v off w D hs
  refine ⟨fun hD => ?_, fun hD => ?_⟩
  · have hnone : takesBytes w.toNat s.data = none := by rw [hs.2, takesBytes_bytes, if_neg hD]
    rw [raises_iff]
    exact (command_wrong (.wrArray v off w) _ _ s hs.1 hnone).trans (by rw [opcodeOf_wrArray]; rfl)
  · have htakes : takesBytes w.toNat (.bytes D) = some D := by rw [takesBytes_bytes, if_pos hD]
    refine ⟨fun hv => ?_, fun hv hw => ?_, fun hv hw hlen => ?_, fun hv hw hlen => ?_⟩
    · exact raises_of_body rfl hs htakes (whenWritable_of_readOnly hv _)
    · exact raises_of_body rfl hs htakes ((whenWritable_of_writable hv _).trans (if_pos hw))
    · exact raises_of_body rfl hs htakes ((whenWritable_of_writable hv _).trans
        ((if_neg (by omega)).trans (if_pos hlen)))
    · exact ⟨s.store v off.toNat D, answers_of_body rfl hs htakes ((whenWritable_of_writable hv _).trans
        ((if_neg (by omega)).trans (if_neg (by omega)))), stored_store s _ _ hv⟩

end Sys2Proof.Machine
end

section
/-! PROOFS. The field of a slot: the checks a configuration makes of it (60_exceptions.md R356), and which bits of the
view are its own (42_bitfield.md R160, 43_codec.md R210). Every encoder replaces the bytes from the field's first one
on, so what it must not change is decided within them. -/

namespace Sys2Proof

/-! ### Byte sequences by their bits -/

/-- Byte sequences of one length are equal when their bits are. -/
theorem bytes_ext {A B : List Byte} (hlen : A.length = B.length)
    (h : ∀ i < A.length, ∀ j < 8, (byteAt A i).getLsbD j = (byteAt B i).getLsbD j) : A = B := by
  refine List.ext_getElem hlen fun i hA hB => BitVec.eq_of_getLsbD_eq fun j hj => ?_
  simpa [byteAt, hA, hB] using h i hA j hj

/-- The bytes just replaced read back (R15). -/
theorem subseq_replaceAt {B new : List Byte} {off n : Nat} (hn : new.length = n) (h : off + n ≤ B.length) :
    subseq (replaceAt B off new) off n = new := by
  have hlen : (subseq (replaceAt B off new) off n).length = n := subseq_length _ _ _ (by rwa [replaceAt_length])
  refine bytes_ext (hlen.trans hn.symm) fun i hi j _ => ?_
  rw [hlen] at hi
  rw [byteAt_subseq _ _ _ _ hi, byteAt_replaceAt _ _ _ (by rwa [hn]), if_pos ⟨by omega, by omega⟩,
    Nat.add_sub_cancel_left]

/-! ### A field within a byte (R160) -/

theorem byteAt_replaceAt_singleton {B : List Byte} {off : Nat} (h : off < B.length) (b : Byte) :
    byteAt (replaceAt B off [b]) off = b := by
  rw [byteAt_replaceAt _ _ _ h, if_pos ⟨le_rfl, by simp⟩, Nat.sub_self]
  rfl

/-- A byte of a sequence with the number `D` written into a field of it (R160). -/
def fieldByte (B : List Byte) (byte bit width D : Nat) : Byte :=
  writeField (byteAt B byte) bit width (BitVec.ofNat 8 D)

theorem writeBits_ofNat (B : List Byte) (byte bit width D : Nat) :
    writeBits B byte bit width (BitVec.ofNat 8 D) = replaceAt B byte [fieldByte B byte bit width D] := rfl

/-- Inside the field the byte has the number's bits, and outside it the bits it had (R160). -/
theorem fieldByte_getLsbD (B : List Byte) (byte : Nat) {bit width D j : Nat} (hshape : wellShaped bit width = true)
    (hD : D < 2 ^ width) (hj : j < 8) :
    (fieldByte B byte bit width D).getLsbD j =
      if 9 - bit - width ≤ j ∧ j < 9 - bit then D.testBit (j - (9 - bit - width)) else (byteAt B byte).getLsbD j := by
  have hend : fieldShift bit width + width = 9 - bit := by
    rw [wellShaped_iff] at hshape
    rw [fieldShift]
    omega
  rw [fieldByte, writeField_getLsbD _ _ _ _ _ (by rwa [toNat_ofNat_of_fits hshape hD]) hj, hend, fieldShift,
    BitVec.getLsbD_ofNat, decide_eq_true (by omega), Bool.true_and]

/-- The field just written reads back as its number (R160). -/
theorem readBits_fieldByte {B : List Byte} {byte bit width D : Nat} (hin : byte < B.length)
    (hshape : wellShaped bit width = true) (hD : D < 2 ^ width) :
    (readBits (replaceAt B byte [fieldByte B byte bit width D]) byte bit width).toNat = D := by
  have hfits := toNat_ofNat_of_fits hshape hD
  rw [readBits, byteAt_replaceAt_singleton hin, fieldByte, readField_writeField _ _ hshape (by rwa [hfits]), hfits]

/-- The two bits of a tri-state field, the higher first (43_codec.md R195). -/
theorem readField_two (b : Byte) {bit : Nat} (h1 : 1 ≤ bit) (h7 : bit ≤ 7) :
    readField b bit 2 =
      (BitVec.ofBool (b.getLsbD (8 - bit)) ++ BitVec.ofBool (b.getLsbD (7 - bit))).setWidth 8 := by
  have hlow : 9 - bit - 2 = 7 - bit := by omega
  have hhigh : 7 - bit + 1 = 8 - bit := by omega
  refine BitVec.eq_of_getLsbD_eq fun j hj => ?_
  rw [readField_getLsbD, fieldShift, hlow]
  rw [BitVec.getLsbD_setWidth, BitVec.getLsbD_append]
  match j with
  | 0 => simp
  | 1 => simp [hhigh]
  | j + 2 => simp

/-! ### A keyed field (R210) -/

theorem ones_getLsbD {j : Nat} (hj : j < 8) : (0xFF#8).getLsbD j = true := by
  rw [show (0xFF#8) = BitVec.allOnes 8 from rfl, BitVec.getLsbD_allOnes, decide_eq_true hj]

theorem keyFirstMask_getLsbD (bit j : Nat) : (keyFirstMask bit).getLsbD j = decide (bit - 1 + j < 8) := by
  rw [keyFirstMask, show (0xFF#8) = BitVec.allOnes 8 from rfl, BitVec.getLsbD_ushiftRight, BitVec.getLsbD_allOnes]

theorem keyLastMask_getLsbD (bit width : Nat) {j : Nat} (hj : j < 8) :
    (keyLastMask bit width).getLsbD j = decide (8 - keyEnd bit width ≤ j) := by
  rw [keyLastMask, show (0xFF#8) = BitVec.allOnes 8 from rfl, BitVec.getLsbD_shiftLeft, BitVec.getLsbD_allOnes]
  simp [hj, show j - (8 - keyEnd bit width) < 8 by omega, ← decide_not, -Bool.decide_iff_dist]

/-- One byte of the field's masks: the first byte is cut on its left, the last one on its right. -/
theorem byteAt_keyMasks_getLsbD {bit width i j : Nat} (hi : i < keyLength bit width) (hj : j < 8) :
    (byteAt (keyMasks bit width) i).getLsbD j =
      (decide (i = 0 → bit - 1 + j < 8) && decide (i = keyLength bit width - 1 → 8 - keyEnd bit width ≤ j)) := by
  unfold keyMasks
  by_cases hone : keyLength bit width = 1
  · obtain rfl : i = 0 := by omega
    simp [hone, byteAt, keyFirstMask_getLsbD, keyLastMask_getLsbD _ _ hj]
  · rw [if_neg hone]
    match i with
    | 0 => simp [byteAt, keyFirstMask_getLsbD, show ¬ 0 = keyLength bit width - 1 by omega]
    | i + 1 =>
      rw [byteAt, List.cons_append, List.getD_cons_succ]
      by_cases hlast : i + 1 = keyLength bit width - 1
      · have hend : i - (keyLength bit width - 2) = 0 := by omega
        rw [List.getD_append_right _ _ _ _ (by rw [List.length_replicate]; omega), List.length_replicate, hend,
          List.getD_cons_zero, keyLastMask_getLsbD _ _ hj]
        simp [hlast, show keyLength bit width - 1 ≠ 0 by omega]
      · rw [List.getD_append _ _ _ _ (by rw [List.length_replicate]; omega), List.getD_replicate _ (by omega)]
        simp [hlast, ones_getLsbD hj]

theorem byteAt_kmask (bit width : Nat) (B : List Byte) (i : Nat) :
    byteAt (kmask bit width B) i = byteAt B i &&& byteAt (keyMasks bit width) i := by
  simp only [byteAt, kmask, List.getD_eq_getElem?_getD, List.getElem?_zipWith]
  cases B[i]? <;> cases (keyMasks bit width)[i]? <;> simp

theorem merge_getLsbD (old new m : Byte) {j : Nat} (hj : j < 8) :
    (merge old new m).getLsbD j = if m.getLsbD j then new.getLsbD j else old.getLsbD j := by
  rw [merge, BitVec.getLsbD_or, BitVec.getLsbD_and, BitVec.getLsbD_and, BitVec.getLsbD_not, decide_eq_true hj]
  cases m.getLsbD j <;> simp

/-- One byte of the keyed encoder's: merged at the two ends, copied between them (R213). -/
theorem byteAt_mergeKey (n i : Nat) {os ks ms : List Byte} (hk : ks.length = os.length) (hm : ms.length = os.length)
    {k : Nat} (hlt : k < os.length) :
    byteAt (mergeKey n i os ks ms) k =
      if i + k = 0 ∨ i + k = n - 1 then merge (byteAt os k) (byteAt ks k) (byteAt ms k) else byteAt ks k := by
  induction os generalizing i ks ms k with
  | nil => simp at hlt
  | cons o os ih =>
    obtain ⟨k₀, ks, rfl⟩ := List.exists_cons_of_length_eq_add_one hk
    obtain ⟨m₀, ms, rfl⟩ := List.exists_cons_of_length_eq_add_one hm
    cases k with
    | zero => rfl
    | succ k =>
      have := ih (i + 1) (by simpa using hk) (by simpa using hm) (by simpa using hlt)
      rw [Nat.add_right_comm] at this
      exact this

end Sys2Proof

namespace Sys2Proof.Machine

/-! ### The checks of a slot (R356) -/

theorem encFnKeepsLength_iff (enc : Option EncFn) :
    encFnKeepsLength enc = true ↔ ∀ id, enc ≠ some (.unchecked id) := by
  cases enc with
  | none => simp [encFnKeepsLength]
  | some f => cases f <;> simp [encFnKeepsLength]

/-- The check of a slot is R356's. -/
theorem slotOk_iff (c : Config) (d : Slot) : Slot.ok c d = true ↔ SlotCheckHolds c d := by
  obtain ⟨byte, bit, width, codec, cat, mode⟩ := d
  unfold Slot.ok SlotCheckHolds Config.cmdN
  generalize Slot.req _ = req
  cases codec with
  | tri => simp [Slot.kindOk, or_iff_not_imp_left, and_assoc]
  | scaled mul off => simp [Slot.kindOk, or_iff_not_imp_left, and_assoc]
  | index table => simp [Slot.kindOk, or_iff_not_imp_left, and_assoc, allDistinct]
  | keyed map => simp [Slot.kindOk, or_iff_not_imp_left, and_assoc, allDistinct]
  | custom dec enc =>
    have henc : Slot.kindOk c ⟨byte, bit, width, .custom dec enc, cat, mode⟩ = true ↔
        ∀ dec' id, Codec.custom dec enc ≠ .custom dec' (some (.unchecked id)) :=
      (encFnKeepsLength_iff enc).trans (by simp [forall_comm (α := Option DecFn)])
    simp [henc, or_iff_not_imp_left]

/-! ### The bits of a slot's field -/

section
variable {d : Slot} {V B K key new : List Byte} {i j : Nat}

/-- Bytes replaced from the field's first one on, with every bit outside the field as it was, change no other bit. -/
theorem replaceAt_getLsbD_of_not_inField (hin : d.byte + new.length ≤ V.length)
    (hnew : ∀ i < new.length, ∀ j < 8, ¬ inField d (d.byte + i) j →
      (byteAt new i).getLsbD j = (byteAt V (d.byte + i)).getLsbD j)
    (hj : j < 8) (hout : ¬ inField d i j) :
    (byteAt (replaceAt V d.byte new) i).getLsbD j = (byteAt V i).getLsbD j := by
  rw [byteAt_replaceAt _ _ _ hin]
  split
  · next hi =>
    have hoff : d.byte + (i - d.byte) = i := by omega
    rw [hnew _ (by omega) j hj (by rwa [hoff]), hoff]
  · rfl

theorem fieldByte_getLsbD_of_not_inField {D : Nat} (hshape : wellShaped d.bit d.width = true)
    (hD : D < 2 ^ d.width) (hj : j < 8) (hout : ¬ inField d d.byte j) :
    (fieldByte V d.byte d.bit d.width D).getLsbD j = (byteAt V d.byte).getLsbD j := by
  rw [fieldByte_getLsbD _ _ hshape hD hj, if_neg]
  unfold inField at hout
  omega

/-- The masks of R210 have the field's bits. -/
theorem keyMasks_getLsbD_iff (hbit : 1 ≤ d.bit ∧ d.bit ≤ 8) (hi : i < keyLength d.bit d.width) (hj : j < 8) :
    (byteAt (keyMasks d.bit d.width) i).getLsbD j = true ↔ inField d (d.byte + i) j := by
  rw [byteAt_keyMasks_getLsbD hi hj, Bool.and_eq_true, decide_eq_true_iff, decide_eq_true_iff]
  unfold keyLength at *
  unfold inField keyEnd
  omega

/-- A key is the masked bytes when it has their bits inside the field and none outside it (R210). -/
theorem kmask_eq_of_bits (hbit : 1 ≤ d.bit ∧ d.bit ≤ 8) (hw : 1 ≤ d.width)
    (hB : B.length = keyLength d.bit d.width) (hK : K.length = keyLength d.bit d.width)
    (hin : ∀ i < K.length, ∀ j < 8, inField d (d.byte + i) j → (byteAt K i).getLsbD j = (byteAt B i).getLsbD j)
    (hout : ∀ i < K.length, ∀ j < 8, ¬ inField d (d.byte + i) j → (byteAt K i).getLsbD j = false) :
    kmask d.bit d.width B = K := by
  have hlen : (kmask d.bit d.width B).length = K.length := by
    rw [kmask, List.length_zipWith, keyMasks_length _ _ hw, hB, hK, Nat.min_self]
  refine bytes_ext hlen fun i hi j hj => ?_
  rw [hlen] at hi
  have hmask := keyMasks_getLsbD_iff hbit (hK ▸ hi) hj
  rw [byteAt_kmask, BitVec.getLsbD_and]
  by_cases hf : inField d (d.byte + i) j
  · rw [hmask.2 hf, Bool.and_true, hin i hi j hj hf]
  · rw [Bool.eq_false_iff.2 (mt hmask.1 hf), Bool.and_false, hout i hi j hj hf]

/-- A masked key has no bit outside the field (R210). -/
theorem key_getLsbD_of_not_inField (hbit : 1 ≤ d.bit ∧ d.bit ≤ 8) (hkey : kmask d.bit d.width key = key)
    (hi : i < keyLength d.bit d.width) (hj : j < 8) (hout : ¬ inField d (d.byte + i) j) :
    (byteAt key i).getLsbD j = false := by
  rw [← hkey, byteAt_kmask, BitVec.getLsbD_and,
    Bool.eq_false_iff.2 (mt (keyMasks_getLsbD_iff hbit hi hj).1 hout), Bool.and_false]

/-- The bytes the keyed encoder puts in the field's place (R213). -/
def keyedBytes (d : Slot) (V key : List Byte) : List Byte :=
  mergeKey (keyLength d.bit d.width) 0 (subseq V d.byte (keyLength d.bit d.width)) key (keyMasks d.bit d.width)

theorem keyedBytes_length (hin : d.byte + keyLength d.bit d.width ≤ V.length) (key : List Byte) :
    (keyedBytes d V key).length = keyLength d.bit d.width := by
  rw [keyedBytes, mergeKey_length, subseq_length _ _ _ hin]

/-- The keyed encoder writes the key's bits into the field and keeps the others: between its ends the field has every
bit, so copying a byte is merging it (R213). -/
theorem keyedBytes_getLsbD (hbit : 1 ≤ d.bit ∧ d.bit ≤ 8) (hw : 1 ≤ d.width)
    (hin : d.byte + keyLength d.bit d.width ≤ V.length) (hkey : key.length = keyLength d.bit d.width)
    (hi : i < keyLength d.bit d.width) (hj : j < 8) :
    (inField d (d.byte + i) j → (byteAt (keyedBytes d V key) i).getLsbD j = (byteAt key i).getLsbD j) ∧
    (¬ inField d (d.byte + i) j →
      (byteAt (keyedBytes d V key) i).getLsbD j = (byteAt V (d.byte + i)).getLsbD j) := by
  have hold := subseq_length V d.byte (keyLength d.bit d.width) hin
  have hmask := keyMasks_getLsbD_iff hbit hi hj
  rw [keyedBytes, byteAt_mergeKey _ _ (by rw [hold, hkey]) (by rw [hold, keyMasks_length _ _ hw]) (by rwa [hold]),
    byteAt_subseq _ _ _ _ hi, Nat.zero_add]
  split
  · rw [merge_getLsbD _ _ _ hj]
    exact ⟨fun hf => if_pos (hmask.2 hf), fun hf => if_neg (mt hmask.1 hf)⟩
  · next hmid =>
    have hf : inField d (d.byte + i) j := by
      unfold keyLength at *
      unfold inField
      omega
    exact ⟨fun _ => rfl, fun hout => absurd hf hout⟩

/-- The key written reads back under the field's mask, whatever the bits around it (R211, R213). -/
theorem kmask_keyedBytes (hbit : 1 ≤ d.bit ∧ d.bit ≤ 8) (hw : 1 ≤ d.width)
    (hin : d.byte + keyLength d.bit d.width ≤ V.length) (hlen : key.length = keyLength d.bit d.width)
    (hkey : kmask d.bit d.width key = key) : kmask d.bit d.width (keyedBytes d V key) = key := by
  refine kmask_eq_of_bits hbit hw (keyedBytes_length hin key) hlen (fun i hi j hj hf => ?_) fun i hi j hj hf => ?_
  · exact ((keyedBytes_getLsbD hbit hw hin hlen (hlen ▸ hi) hj).1 hf).symm
  · exact key_getLsbD_of_not_inField hbit hkey (hlen ▸ hi) hj hf

end

end Sys2Proof.Machine
end

section
/-! PROOFS. The codecs as functions of a view's bytes (43_codec.md R190 to R219), by the outcomes of each, and the
round-trip law (R230): each encoder that writes replaces bytes of its field, and its decoder finds the value in them. -/

namespace Sys2Proof.Machine

/-! ### Kinds and short views (R190) -/

section
variable {m : NumModel} {d : Slot} {V : List Byte} {x : Value}

/-- The value an encode takes is of the slot's own kind (R192). -/
theorem kindTakes_cases (h : kindTakes d.kind x = true) :
    (d.codec = .tri ∧ ∃ b, x = .bool b) ∨ (∃ mul off, d.codec = .scaled mul off ∧ ∃ q, x = .num q) ∨
    (∃ table, d.codec = .index table ∧ ∃ t, x = .str t) ∨
    (∃ map, d.codec = .keyed map ∧ ((∃ t, x = .str t) ∨ x = .undef)) ∨ ∃ dec enc, d.codec = .custom dec enc := by
  unfold Slot.kind at h
  cases hc : d.codec with
  | tri =>
    cases x with
    | bool b => simp
    | num | str | undef => simp [hc, kindTakes] at h
  | scaled mul off =>
    cases x with
    | num q => simp
    | bool | str | undef => simp [hc, kindTakes] at h
  | index table =>
    cases x with
    | str t => simp
    | bool | num | undef => simp [hc, kindTakes] at h
  | keyed map =>
    cases x with
    | str t => simp
    | undef => simp
    | bool | num => simp [hc, kindTakes] at h
  | custom dec enc => simp

/-- A decode of a short view has no value (R190). -/
theorem slotDecode_of_short (h : V.length < d.req) : slotDecode m d V = Decoded.absent := by
  unfold Slot.req at h
  unfold slotDecode
  cases hc : d.codec with
  | tri | scaled | index | keyed =>
    rw [hc] at h
    exact if_pos h
  | custom =>
    rw [hc] at h
    exact absurd h (Nat.not_lt_zero _)

/-- An encode into a short view has no effect (R190). -/
theorem slotEncode_of_short (h : V.length < d.req) (hx : kindTakes d.kind x = true) :
    slotEncode m d V x = .noEffect [] := by
  unfold Slot.req at h
  unfold slotEncode
  obtain ⟨hc, b, rfl⟩ | ⟨mul, off, hc, q, rfl⟩ | ⟨table, hc, t, rfl⟩ | ⟨map, hc, ⟨t, rfl⟩ | rfl⟩ | ⟨dec, enc, hc⟩ :=
    kindTakes_cases hx <;> rw [hc] at h ⊢
  · exact if_pos h
  · exact if_pos h
  · exact if_pos h
  · exact if_pos h
  · exact if_pos h
  · exact absurd h (Nat.not_lt_zero _)

end

/-! ### The tri-state codec (R195, R196) -/

section
variable {m : NumModel} {d : Slot} {V : List Byte}

/-- What the two bits of a tri-state field mean, the higher first (R195). -/
def triDecoded : Bool → Bool → Decoded
  | false, false => Decoded.absent
  | true, true => ⟨none, [logEvent .wTriInvalid]⟩
  | false, true => Decoded.some (.bool false)
  | true, false => Decoded.some (.bool true)

theorem slotDecode_tri (hc : d.codec = .tri) (h1 : 1 ≤ d.bit) (h7 : d.bit ≤ 7) (hin : d.byte < V.length) :
    slotDecode m d V =
      triDecoded ((byteAt V d.byte).getLsbD (8 - d.bit)) ((byteAt V d.byte).getLsbD (7 - d.bit)) := by
  unfold slotDecode
  rw [hc]
  change decTri d V = _
  rw [decTri, if_neg (by omega), readBits, readField_two _ h1 h7]
  cases (byteAt V d.byte).getLsbD (8 - d.bit) <;> cases (byteAt V d.byte).getLsbD (7 - d.bit) <;> rfl

/-- The number the tri-state encoder writes (R196). -/
def triNumber (b : Bool) : Nat := if b then 2 else 1

theorem triNumber_lt (b : Bool) : triNumber b < 2 ^ 2 := by cases b <;> decide

theorem slotEncode_tri (hc : d.codec = .tri) (hin : d.byte < V.length) (b : Bool) :
    slotEncode m d V (.bool b) = .written (replaceAt V d.byte [fieldByte V d.byte d.bit 2 (triNumber b)]) := by
  unfold slotEncode
  rw [hc]
  refine (if_neg (by omega)).trans ?_
  cases b with
  | false => exact congrArg Encoded.written (writeBits_ofNat V d.byte d.bit 2 1)
  | true => exact congrArg Encoded.written (writeBits_ofNat V d.byte d.bit 2 2)

/-- The two bits the tri-state encoder writes (R196). -/
theorem triByte_getLsbD (h1 : 1 ≤ d.bit) (h7 : d.bit ≤ 7) (b : Bool) :
    (fieldByte V d.byte d.bit 2 (triNumber b)).getLsbD (8 - d.bit) = b ∧
    (fieldByte V d.byte d.bit 2 (triNumber b)).getLsbD (7 - d.bit) = !b := by
  have hshape : wellShaped d.bit 2 = true := by
    rw [wellShaped_iff]
    omega
  have hhigh : 8 - d.bit - (9 - d.bit - 2) = 1 := by omega
  have hlow : 7 - d.bit - (9 - d.bit - 2) = 0 := by omega
  rw [fieldByte_getLsbD _ _ hshape (triNumber_lt b) (by omega),
    fieldByte_getLsbD _ _ hshape (triNumber_lt b) (by omega), if_pos (by omega), if_pos (by omega), hhigh, hlow]
  cases b <;> decide

end

/-! ### The scaled codec (R200, R201) -/

section
variable {m : NumModel} {d : Slot} {V : List Byte} {mul off q : Num}

theorem slotDecode_scaled (hc : d.codec = .scaled mul off) (hin : d.byte + d.width / 8 ≤ V.length) :
    slotDecode m d V = Decoded.some (.num (m.scaleUp mul off (le (subseq V d.byte (d.width / 8))))) := by
  unfold slotDecode
  rw [hc]
  exact if_neg (by omega)

/-- The number does not fit in the field's bytes (R201). -/
theorem slotEncode_scaled_of_outside (hc : d.codec = .scaled mul off) (hin : d.byte + d.width / 8 ≤ V.length)
    (hr : m.scaleDown mul off q < 0 ∨ (256 ^ (d.width / 8) : Int) ≤ m.scaleDown mul off q) :
    slotEncode m d V (.num q) = .fails .encRange := by
  unfold slotEncode
  rw [hc]
  refine (if_neg (by omega)).trans (if_pos ?_)
  rwa [pow_mul]

theorem slotEncode_scaled_of_fits (hc : d.codec = .scaled mul off) (hin : d.byte + d.width / 8 ≤ V.length)
    (h0 : 0 ≤ m.scaleDown mul off q) (hr : m.scaleDown mul off q < (256 ^ (d.width / 8) : Int)) :
    slotEncode m d V (.num q) =
      .written (replaceAt V d.byte (leBytes (m.scaleDown mul off q).toNat (d.width / 8))) := by
  unfold slotEncode
  rw [hc]
  refine (if_neg (by omega)).trans (if_neg ?_)
  rw [pow_mul]
  exact not_or.2 ⟨not_lt.2 h0, not_le.2 hr⟩

/-- `trunc` of the exact rationals rounds toward zero (R202). -/
theorem truncNum_eq (x : Rat) : truncNum x = if x < 0 then ⌈x⌉ else ⌊x⌋ := by
  unfold truncNum
  split
  · next hx =>
    have hnum : 0 ≤ -x.num := by
      have := Rat.num_neg.2 hx
      omega
    rw [Rat.ceil_def', ← Int.tdiv_eq_ediv_of_nonneg hnum, Int.neg_tdiv, neg_neg]
  · next hx => rw [Int.tdiv_eq_ediv_of_nonneg (Rat.num_nonneg.2 (not_lt.1 hx)), Rat.floor_def']

theorem truncNum_natCast (n : Nat) : truncNum (n : Rat) = n := by
  rw [truncNum_eq, if_neg (not_lt.2 (Nat.cast_nonneg n)), Int.floor_natCast]

/-- Scaling a number up and down again gives it back (R230). -/
theorem scaleDown_scaleUp (hmul : mul ≠ 0) (off : Rat) (raw : Nat) :
    NumModel.exactRationals.scaleDown mul off (((raw : Rat) + off) * mul) = raw := by
  rw [NumModel.scaleDown, NumModel_div_exact, NumModel_sub_exact, NumModel_trunc_exact, mul_div_cancel_right₀ _ hmul,
    add_sub_cancel_right, truncNum_natCast]

end

/-! ### The indexed codec (R205, R206) -/

section
variable {m : NumModel} {d : Slot} {V : List Byte} {table : List String} {t : String}

theorem slotDecode_index_of_zero (hc : d.codec = .index table) (hin : d.byte < V.length)
    (hraw : (readBits V d.byte d.bit d.width).toNat = 0) : slotDecode m d V = Decoded.absent := by
  unfold slotDecode
  rw [hc]
  exact (if_neg (by omega)).trans (by rw [hraw])

theorem slotDecode_index_of_above (hc : d.codec = .index table) (hin : d.byte < V.length)
    (hraw : table.length < (readBits V d.byte d.bit d.width).toNat) :
    slotDecode m d V = ⟨none, [logEvent .wIndexRange]⟩ := by
  unfold slotDecode
  rw [hc]
  refine (if_neg (by omega)).trans ?_
  obtain ⟨p, hp⟩ := Nat.exists_eq_add_one_of_ne_zero (Nat.ne_zero_of_lt hraw)
  rw [hp] at hraw ⊢
  simp only [List.getElem?_eq_none (Nat.le_of_lt_succ hraw)]

theorem slotDecode_index_of_getElem {p : Nat} (hc : d.codec = .index table) (hin : d.byte < V.length)
    (hraw : (readBits V d.byte d.bit d.width).toNat = p + 1) (hp : table[p]? = some t) :
    slotDecode m d V = Decoded.some (.str t) := by
  unfold slotDecode
  rw [hc]
  exact (if_neg (by omega)).trans (by simp only [hraw, hp])

theorem slotEncode_index_of_not_mem (hc : d.codec = .index table) (hin : d.byte < V.length) (ht : t ∉ table) :
    slotEncode m d V (.str t) = .noEffect [logEvent .wEncUnknown] := by
  have hnone : table.findIdx? (fun u => u == t) = none := by
    rw [List.findIdx?_eq_none_iff]
    intro u hu
    exact beq_eq_false_iff_ne.2 (ne_of_mem_of_not_mem hu ht)
  unfold slotEncode
  rw [hc]
  exact (if_neg (by omega)).trans (by rw [hnone])

/-- The least position of the string goes into the field (R206). -/
theorem slotEncode_index_of_least {p : Nat} (hc : d.codec = .index table) (hin : d.byte < V.length)
    (hp : table[p]? = some t) (hleast : ∀ p' < p, table[p']? ≠ some t) :
    slotEncode m d V (.str t) = .written (replaceAt V d.byte [fieldByte V d.byte d.bit d.width (p + 1)]) := by
  have hsome : table.findIdx? (fun u => u == t) = some p := by
    obtain ⟨hlt, hpt⟩ := List.getElem?_eq_some_iff.1 hp
    refine List.findIdx?_eq_some_iff_getElem.2 ⟨hlt, beq_iff_eq.2 hpt, fun p' hp' heq => hleast p' hp' ?_⟩
    exact List.getElem?_eq_some_iff.2 ⟨hp'.trans hlt, beq_iff_eq.1 heq⟩
  unfold slotEncode
  rw [hc]
  exact (if_neg (by omega)).trans (by simp only [hsome, writeBits_ofNat])

end

/-! ### The keyed codec (R211 to R213) -/

section
variable {m : NumModel} {d : Slot} {V key : List Byte} {map : List (List Byte × String)} {t : String}

/-- Keys are unique (R356), so looking one up finds its own pair. -/
theorem find?_key (hnodup : (map.map (·.1)).Nodup) {e : List Byte × String}
    (he : e ∈ map) : map.find? (fun e' => e'.1 == e.1) = some e := by
  cases hf : map.find? (fun e' => e'.1 == e.1) with
  | none => exact absurd (beq_self_eq_true e.1) (List.find?_eq_none.1 hf e he)
  | some e' =>
    have hkey : e'.1 = e.1 := by simpa using List.find?_some hf
    rw [List.inj_on_of_nodup_map hnodup (List.mem_of_find?_eq_some hf) he hkey]

theorem slotDecode_keyed_of_mem (hc : d.codec = .keyed map) (hnodup : (map.map (·.1)).Nodup)
    (hin : d.byte + keyLength d.bit d.width ≤ V.length)
    (hkey : kmask d.bit d.width (subseq V d.byte (keyLength d.bit d.width)) = key) (he : (key, t) ∈ map) :
    slotDecode m d V = Decoded.some (.str t) := by
  unfold slotDecode
  rw [hc]
  exact (if_neg (by omega)).trans (by rw [hkey, find?_key hnodup he])

theorem slotDecode_keyed_of_not_mem (hc : d.codec = .keyed map)
    (hin : d.byte + keyLength d.bit d.width ≤ V.length)
    (hkey : kmask d.bit d.width (subseq V d.byte (keyLength d.bit d.width)) = key) (he : ∀ t, (key, t) ∉ map) :
    slotDecode m d V = Decoded.some .undef := by
  have hnone : map.find? (fun e => e.1 == key) = none := by
    rw [List.find?_eq_none]
    rintro ⟨k, u⟩ hmem heq
    exact he u (beq_iff_eq.1 heq ▸ hmem)
  unfold slotDecode
  rw [hc]
  exact (if_neg (by omega)).trans (by rw [hkey, hnone])

/-- `Undef` and a string of no pair have no key (R213). -/
theorem slotEncode_keyed_of_unknown {x : Value} (hc : d.codec = .keyed map) (hx : kindTakes .keyed x = true)
    (hin : d.byte + keyLength d.bit d.width ≤ V.length) (hunknown : ∀ e ∈ map, x ≠ .str e.2) :
    slotEncode m d V x = .noEffect [logEvent .wEncUnknown] := by
  unfold slotEncode
  rw [hc]
  cases x with
  | bool b => cases hx
  | num q => cases hx
  | undef => exact if_neg (by omega)
  | str t =>
    have hnone : map.find? (fun e => e.2 == t) = none := by
      rw [List.find?_eq_none]
      intro e he heq
      exact hunknown e he (congrArg Value.str (beq_iff_eq.1 heq).symm)
    exact (if_neg (by omega)).trans (by rw [Option.bind_some, hnone])

theorem slotEncode_keyed_of_find {e : List Byte × String} (hc : d.codec = .keyed map)
    (hin : d.byte + keyLength d.bit d.width ≤ V.length) (he : map.find? (fun e => e.2 == t) = some e) :
    slotEncode m d V (.str t) = .written (replaceAt V d.byte (keyedBytes d V e.1)) := by
  unfold slotEncode
  rw [hc]
  exact (if_neg (by omega)).trans (by rw [Option.bind_some, he]; rfl)

end

/-! ### The round-trip law (R230) -/

/-- Decoding what the encode of `x` into `V` wrote gives `x`, and the encode changed no bit outside the field. -/
def RoundTrips (m : NumModel) (d : Slot) (V : List Byte) (x : Value) : Prop :=
  ∃ V', slotEncode m d V x = .written V' ∧ slotDecode m d V' = ⟨some x, []⟩ ∧ V'.length = V.length ∧
    ∀ i < V.length, ∀ j < 8, ¬ inField d i j → (byteAt V' i).getLsbD j = (byteAt V i).getLsbD j

section
variable {c : Config} {m : NumModel} {d : Slot} {V new : List Byte} {x : Value} {mul off : Num} {table : List String}
variable {map : List (List Byte × String)}

/-- An encoder that replaces the field's bytes round-trips when they decode to the value and keep the other bits. -/
theorem roundTrips_of_replaceAt (hin : d.byte + new.length ≤ V.length)
    (henc : slotEncode m d V x = .written (replaceAt V d.byte new))
    (hdec : slotDecode m d (replaceAt V d.byte new) = Decoded.some x)
    (hkeep : ∀ i < new.length, ∀ j < 8, ¬ inField d (d.byte + i) j →
      (byteAt new i).getLsbD j = (byteAt V (d.byte + i)).getLsbD j) : RoundTrips m d V x :=
  ⟨_, henc, hdec, replaceAt_length _ _ _, fun _ _ _ hj hout => replaceAt_getLsbD_of_not_inField hin hkeep hj hout⟩

/-- The same for a field within one byte. -/
theorem roundTrips_of_fieldByte {D : Nat} (hshape : wellShaped d.bit d.width = true) (hD : D < 2 ^ d.width)
    (hin : d.byte < V.length)
    (henc : slotEncode m d V x = .written (replaceAt V d.byte [fieldByte V d.byte d.bit d.width D]))
    (hdec : slotDecode m d (replaceAt V d.byte [fieldByte V d.byte d.bit d.width D]) = Decoded.some x) :
    RoundTrips m d V x := by
  refine roundTrips_of_replaceAt (by simpa using hin) henc hdec fun i hi j hj hout => ?_
  obtain rfl : i = 0 := by simpa using hi
  exact fieldByte_getLsbD_of_not_inField hshape hD hj hout

theorem tri_roundTrips (hok : Slot.ok c d = true) (hc : d.codec = .tri) (hin : d.req ≤ V.length) (b : Bool) :
    RoundTrips m d V (.bool b) := by
  obtain ⟨htri, -⟩ := (slotOk_iff c d).1 hok
  obtain ⟨h1, h7, hw⟩ := htri hc
  have hin : d.byte < V.length := by rwa [Slot.req, hc] at hin
  have hshape : wellShaped d.bit d.width = true := by
    rw [wellShaped_iff]
    omega
  have henc := slotEncode_tri (m := m) hc hin b
  rw [← hw] at henc
  refine roundTrips_of_fieldByte hshape (hw ▸ triNumber_lt b) hin henc ?_
  obtain ⟨hhigh, hlow⟩ := triByte_getLsbD (V := V) h1 h7 b
  rw [slotDecode_tri hc h1 h7 (by rwa [replaceAt_length]), byteAt_replaceAt_singleton hin, hw, hhigh, hlow]
  cases b <;> rfl

theorem scaled_roundTrips (hok : Slot.ok c d = true) (hc : d.codec = .scaled mul off) (hin : d.req ≤ V.length)
    {raw : Nat} (hraw : raw < 2 ^ d.width) :
    RoundTrips .exactRationals d V (.num (((raw : Rat) + off) * mul)) := by
  obtain ⟨-, hscaled, -⟩ := (slotOk_iff c d).1 hok
  obtain ⟨hw, hbit, hmul⟩ := hscaled mul off hc
  have hin : d.byte + d.width / 8 ≤ V.length := by rwa [Slot.req, hc] at hin
  have h8 : 8 * (d.width / 8) = d.width := by
    simp only [List.mem_cons, List.not_mem_nil, or_false] at hw
    omega
  have hfits : raw < 256 ^ (d.width / 8) := by rwa [← two_pow_eight_mul, h8]
  have hdown := scaleDown_scaleUp hmul off raw
  have henc := slotEncode_scaled_of_fits (V := V) hc hin (by rw [hdown]; omega) (by rw [hdown]; exact_mod_cast hfits)
  rw [hdown, Int.toNat_natCast] at henc
  have hlen := leBytes_length raw (d.width / 8)
  refine roundTrips_of_replaceAt (by rwa [hlen]) henc ?_ fun i hi j hj hout => absurd ?_ hout
  · rw [slotDecode_scaled hc (by rwa [replaceAt_length]), subseq_replaceAt hlen hin, le_leBytes raw _ hfits]
    rfl
  · rw [hlen] at hi
    unfold inField
    omega

theorem index_roundTrips (hok : Slot.ok c d = true) (hc : d.codec = .index table) (hin : d.req ≤ V.length)
    {t : String} (ht : t ∈ table) : RoundTrips m d V (.str t) := by
  obtain ⟨-, -, hindex, -⟩ := (slotOk_iff c d).1 hok
  obtain ⟨⟨hw1, hw8⟩, ⟨hb1, hb8⟩, ⟨-, htable⟩, -⟩ := hindex table hc
  have hin : d.byte < V.length := by rwa [Slot.req, hc] at hin
  have hshape : wellShaped d.bit d.width = true := by
    rw [wellShaped_iff]
    omega
  obtain ⟨p, hp, hleast⟩ : ∃ p, table[p]? = some t ∧ ∀ p' < p, table[p']? ≠ some t := by
    classical
    have hex := List.mem_iff_getElem?.1 ht
    exact ⟨Nat.find hex, Nat.find_spec hex, fun p' hp' => Nat.find_min hex hp'⟩
  have hlt : p < table.length := (List.getElem?_eq_some_iff.1 hp).1
  have hD : p + 1 < 2 ^ d.width := by omega
  refine roundTrips_of_fieldByte hshape hD hin (slotEncode_index_of_least hc hin hp hleast) ?_
  exact slotDecode_index_of_getElem hc (by rwa [replaceAt_length]) (readBits_fieldByte hin hshape hD) hp

theorem keyed_roundTrips (hok : Slot.ok c d = true) (hc : d.codec = .keyed map) (hin : d.req ≤ V.length)
    {e : List Byte × String} (he : e ∈ map) : RoundTrips m d V (.str e.2) := by
  obtain ⟨-, -, -, hkeyed, -⟩ := (slotOk_iff c d).1 hok
  obtain ⟨hbit, hw, -, hkeys, hnodup, -⟩ := hkeyed map hc
  have hin : d.byte + keyLength d.bit d.width ≤ V.length := by rwa [Slot.req, hc] at hin
  obtain ⟨e', hfind⟩ : ∃ e', map.find? (fun f => f.2 == e.2) = some e' :=
    Option.isSome_iff_exists.1 (List.find?_isSome.2 ⟨e, he, beq_self_eq_true e.2⟩)
  have hmem := List.mem_of_find?_eq_some hfind
  have hstr : e'.2 = e.2 := by simpa using List.find?_some hfind
  obtain ⟨hlen, hkey⟩ := hkeys e' hmem
  have hnew := keyedBytes_length hin e'.1
  refine roundTrips_of_replaceAt (by rwa [hnew]) (slotEncode_keyed_of_find hc hin hfind) ?_
    fun i hi j hj => (keyedBytes_getLsbD hbit hw hin hlen (hnew ▸ hi) hj).2
  refine slotDecode_keyed_of_mem hc hnodup (by rwa [replaceAt_length]) ?_ (key := e'.1) (by rwa [← hstr])
  rw [subseq_replaceAt hnew hin, kmask_keyedBytes hbit hw hin hlen hkey]

end

/-- Settles O35: by the slot's kind, each encoder against its decoder. -/
theorem codecRoundTrip : Obligations.CodecRoundTrip := by
  unfold Obligations.CodecRoundTrip
  intro c d V x hok _ hin hx
  obtain ⟨hc, b, rfl⟩ | ⟨hnum, mul, off, hc, raw, hraw, rfl⟩ | ⟨table, hc, t, ht, rfl⟩ | ⟨map, hc, e, he, rfl⟩ := hx
  · exact tri_roundTrips hok hc hin b
  · rw [hnum]
    exact scaled_roundTrips hok hc hin hraw
  · exact index_roundTrips hok hc hin ht
  · exact keyed_roundTrips hok hc hin he

end Sys2Proof.Machine
end

section
/-! PROOFS. The codec commands (43_codec.md R190 to R219): the checks of R191 in their order, and then the outcome of
the slot's codec, as its decoder or encoder gives it for the bytes of the view. -/

namespace Sys2Proof.Machine

/-! ### The commands of any kind (R191) -/

theorem State.emit_nil (s : State) : s.emit [] = s := by rw [State.emit, List.append_nil]

/-- Storing a view back with some of its bytes replaced stores those bytes (R15). -/
theorem stored_store_replaceAt {s : State} {v : View} {off : Nat} {new : List Byte} (hv : readOnly v = false)
    (hin : off + new.length ≤ (s.view v).length) :
    Stored s (s.store v 0 (replaceAt (s.view v) off new)) v off new :=
  stored_store_whole s off new _ hv (replaceAt_length _ _ _) (by rwa [replaceAt_length])
    fun i _ => byteAt_replaceAt _ _ _ hin i

theorem exec_decoderOf (k : Kind) (v : View) (slot : BitVec 8) (s : State) :
    exec (decoderOf k v slot) s =
      command (decoderOf k v slot) takesNothing (fun _ => decodeSlot k v slot s) s := by
  cases k <;> rfl

theorem exec_encoderOf (k : Kind) (v : View) (slot : BitVec 8) (s : State) :
    exec (encoderOf k v slot) s =
      command (encoderOf k v slot) takesValue (fun x => encodeSlot k v slot x s) s := by
  cases k <;> rfl

section
variable {s : State} {k : Kind} {v : View} {slot : BitVec 8} {d : Slot} {x : Value} {c : FaultCode} {info : Nat}

theorem raises_decoderOf (hs : Ready s .empty) (h : decodeSlot k v slot s = .raise c info) :
    Raises (decoderOf k v slot) s c info := raises_of_body (exec_decoderOf k v slot s) hs rfl h

theorem raises_encoderOf (hs : Ready s (.value x)) (h : encodeSlot k v slot x s = .raise c info) :
    Raises (encoderOf k v slot) s c info := raises_of_body (exec_encoderOf k v slot s) hs rfl h

section
variable (hs : Ready s .empty) (hd : s.cfg.slots[slot.toNat]? = some d) (hk : d.kind = k)
include hs hd hk

/-- A decode that passes its checks answers what the slot's decoder gives. -/
theorem answers_decoderOf {r : Decoded} (h : slotDecode s.cfg.num d (s.view v) = r) :
    Answers (decoderOf k v slot) s (decodeResponse r) (s.emit r.logs) :=
  answers_of_body (exec_decoderOf k v slot s) hs rfl
    ((withSlot_some hd _).trans ((whenKind_eq hk _ _).trans (by rw [h])))

theorem answers_decoderOf_absent (h : slotDecode s.cfg.num d (s.view v) = Decoded.absent) :
    Answers (decoderOf k v slot) s ⟨.absent, .empty⟩ s := by
  have ha := answers_decoderOf hs hd hk h
  rwa [show Decoded.absent.logs = [] from rfl, State.emit_nil] at ha

theorem answers_decoderOf_some (h : slotDecode s.cfg.num d (s.view v) = Decoded.some x) :
    Answers (decoderOf k v slot) s ⟨.ok, .value x⟩ s := by
  have ha := answers_decoderOf hs hd hk h
  rwa [show (Decoded.some x).logs = [] from rfl, State.emit_nil] at ha

theorem answers_decoderOf_short (h : (s.view v).length < d.req) :
    Answers (decoderOf k v slot) s ⟨.absent, .empty⟩ s :=
  answers_decoderOf_absent hs hd hk (slotDecode_of_short h)

end

section
variable (hs : Ready s (.value x)) (hd : s.cfg.slots[slot.toNat]? = some d) (hk : d.kind = k)
variable (hv : readOnly v = false) (hx : kindTakes k x = true)
include hd hk hv hx

/-- An encode that passes its checks ends in what the slot's encoder gives. -/
theorem encodeSlot_eq {r : Encoded} (h : slotEncode s.cfg.num d (s.view v) x = r) :
    encodeSlot k v slot x s = encodeEffect v slot s r :=
  (withSlot_some hd _).trans ((whenKind_eq hk _ _).trans ((whenWritable_of_writable hv _).trans
    ((whenTakes_true (by rwa [hk]) _ _).trans (by rw [h]))))

include hs

theorem answers_encoderOf_written {V : List Byte} (h : slotEncode s.cfg.num d (s.view v) x = .written V) :
    Answers (encoderOf k v slot) s ⟨.ok, .empty⟩ (s.store v 0 V) :=
  answers_of_body (exec_encoderOf k v slot s) hs rfl (encodeSlot_eq hd hk hv hx h)

theorem answers_encoderOf_noEffect {logs : List Event}
    (h : slotEncode s.cfg.num d (s.view v) x = .noEffect logs) :
    Answers (encoderOf k v slot) s ⟨.noEffect, .empty⟩ (s.emit logs) :=
  answers_of_body (exec_encoderOf k v slot s) hs rfl (encodeSlot_eq hd hk hv hx h)

theorem raises_encoderOf_fails (h : slotEncode s.cfg.num d (s.view v) x = .fails c) :
    Raises (encoderOf k v slot) s c slot.toNat :=
  raises_encoderOf hs (encodeSlot_eq hd hk hv hx h)

theorem answers_encoderOf_unchanged (h : slotEncode s.cfg.num d (s.view v) x = .noEffect []) :
    Answers (encoderOf k v slot) s ⟨.noEffect, .empty⟩ s := by
  have ha := answers_encoderOf_noEffect hs hd hk hv hx h
  rwa [State.emit_nil] at ha

theorem answers_encoderOf_short (h : (s.view v).length < d.req) :
    Answers (encoderOf k v slot) s ⟨.noEffect, .empty⟩ s :=
  answers_encoderOf_unchanged hs hd hk hv hx (slotEncode_of_short h (by rwa [hk]))

/-- An encoder that replaces bytes of its field stores those bytes. -/
theorem encoderOf_stores {new : List Byte}
    (h : slotEncode s.cfg.num d (s.view v) x = .written (replaceAt (s.view v) d.byte new))
    (hin : d.byte + new.length ≤ (s.view v).length) :
    ∃ t, Answers (encoderOf k v slot) s ⟨.ok, .empty⟩ t ∧ Stored s t v d.byte new :=
  ⟨_, answers_encoderOf_written hs hd hk hv hx h, stored_store_replaceAt hv hin⟩

end

end

/-- Settles O24: each command by the first of its checks that fails. -/
theorem slotOperandChecks : Obligations.SlotOperandChecks := by
  unfold Obligations.SlotOperandChecks
  intro s k v slot x hf
  refine ⟨fun he hlen => ⟨?_, ?_⟩, fun he hlen => ⟨?_, ?_⟩, fun d hd => ⟨fun he hk => ?_, fun he hk => ?_,
    fun he hk hv => ?_, fun he hk hv hx => ?_, fun he hm hx => ?_⟩⟩
  · exact raises_decoderOf ⟨hf, he⟩ (withSlot_none hlen _)
  · exact raises_of_body rfl ⟨hf, he⟩ rfl (withSlot_none hlen _)
  · exact raises_encoderOf ⟨hf, he⟩ (withSlot_none hlen _)
  · exact raises_of_body rfl ⟨hf, he⟩ rfl (withSlot_none hlen _)
  · exact raises_decoderOf ⟨hf, he⟩ ((withSlot_some hd _).trans (whenKind_ne hk _ _))
  · exact raises_encoderOf ⟨hf, he⟩ ((withSlot_some hd _).trans (whenKind_ne hk _ _))
  · exact raises_encoderOf ⟨hf, he⟩ ((withSlot_some hd _).trans ((whenKind_eq hk _ _).trans
      (whenWritable_of_readOnly hv _)))
  · exact raises_encoderOf ⟨hf, he⟩ ((withSlot_some hd _).trans ((whenKind_eq hk _ _).trans
      ((whenWritable_of_writable hv _).trans (whenTakes_false (by rwa [hk]) _ _))))
  · exact raises_of_body rfl ⟨hf, he⟩ rfl ((withSlot_some hd _).trans ((if_neg hm).trans (whenTakes_false hx _ _)))

/-- Settles O25: the required size by the slot's kind; a short view has no value to decode and no room to encode. -/
theorem shortViewsAreNotErrors : Obligations.ShortViewsAreNotErrors := by
  unfold Obligations.ShortViewsAreNotErrors
  intro s v slot d x hf hd
  refine ⟨?_, fun hshort => ⟨fun he => ?_, fun he hv hx => ?_⟩⟩
  · unfold Slot.req keyLength
    rfl
  · exact answers_decoderOf_short ⟨hf, he⟩ hd rfl hshort
  · exact answers_encoderOf_short ⟨hf, he⟩ hd rfl hv hx hshort

/-! ### The tri-state commands (R195, R196) -/

/-- Settles O26: by the two bits of the field. -/
theorem decodeTriState : Obligations.DecodeTriState := by
  unfold Obligations.DecodeTriState
  intro s v slot d hs hd hc h1 h7
  have hk : d.kind = .tri := by rw [Slot.kind, hc]
  refine ⟨fun hshort => ?_, fun hin => ?_⟩
  · exact answers_decoderOf_short hs hd hk (by rw [Slot.req, hc]; exact Nat.lt_succ_of_le hshort)
  · have h := slotDecode_tri (m := s.cfg.num) hc h1 h7 hin
    split
    · next hhigh hlow => exact answers_decoderOf_absent hs hd hk (by rw [h, hhigh, hlow]; rfl)
    · next hhigh hlow =>
      have hinvalid : slotDecode s.cfg.num d (s.view v) = ⟨none, [logEvent .wTriInvalid]⟩ := by
        rw [h, hhigh, hlow]
        rfl
      exact answers_decoderOf hs hd hk hinvalid
    · next hhigh hlow => exact answers_decoderOf_some hs hd hk (by rw [h, hhigh, hlow]; rfl)
    · next hhigh hlow => exact answers_decoderOf_some hs hd hk (by rw [h, hhigh, hlow]; rfl)

/-- Settles O27: the encoder replaces the field's byte, and only its two bits in it. -/
theorem encodeTriState : Obligations.EncodeTriState := by
  unfold Obligations.EncodeTriState
  intro s v slot d b hs hd hc h1 h7 hv
  have hk : d.kind = .tri := by rw [Slot.kind, hc]
  refine ⟨fun hshort => ?_, fun hin => ?_⟩
  · exact answers_encoderOf_short hs hd hk hv rfl (by rw [Slot.req, hc]; exact Nat.lt_succ_of_le hshort)
  · obtain ⟨t, ha, hst⟩ := encoderOf_stores hs hd hk hv rfl (slotEncode_tri hc hin b) hin
    obtain ⟨hhigh, hlow⟩ := triByte_getLsbD (V := s.view v) h1 h7 b
    refine ⟨t, _, ha, hst, hhigh, hlow, fun j hj hjhigh hjlow => ?_⟩
    have hshape : wellShaped d.bit 2 = true := by
      rw [wellShaped_iff]
      omega
    rw [fieldByte_getLsbD _ _ hshape (triNumber_lt b) hj, if_neg (by omega)]

/-! ### The scaled commands (R200, R201) -/

/-- Settles O28: the decoder scales the little-endian number of the field's bytes. -/
theorem decodeScaled : Obligations.DecodeScaled := by
  unfold Obligations.DecodeScaled
  intro s v slot d mul off raw hs hd hc hraw
  have hk : d.kind = .scaled := by rw [Slot.kind, hc]
  refine ⟨fun hshort => ?_, fun hin => ?_⟩
  · exact answers_decoderOf_short hs hd hk (by rwa [Slot.req, hc])
  · have h := slotDecode_scaled (m := s.cfg.num) hc hin
    rw [le_subseq hin, ← hraw] at h
    refine ⟨answers_decoderOf_some hs hd hk h, fun hnum => answers_decoderOf_some hs hd hk (h.trans ?_)⟩
    rw [hnum]
    rfl

/-- Settles O29: the number is in range, and stored, or out of range, and refused. -/
theorem encodeScaled : Obligations.EncodeScaled := by
  unfold Obligations.EncodeScaled
  intro s v slot d mul off q r hs hd hc hv hr
  have hk : d.kind = .scaled := by rw [Slot.kind, hc]
  change r = s.cfg.num.scaleDown mul off q at hr
  subst hr
  refine ⟨fun hnum => ?_, fun hshort => ?_, fun hin hout => ?_, fun hin h0 hfits => ?_⟩
  · rw [hnum]
    exact truncNum_eq _
  · exact answers_encoderOf_short hs hd hk hv rfl (by rwa [Slot.req, hc])
  · exact raises_encoderOf_fails hs hd hk hv rfl (slotEncode_scaled_of_outside hc hin hout)
  · rw [← leBytes_eq_map]
    exact encoderOf_stores hs hd hk hv rfl (slotEncode_scaled_of_fits hc hin h0 hfits) (by rwa [leBytes_length])

/-! ### The indexed commands (R205, R206) -/

/-- Settles O30: by the number in the field. -/
theorem decodeIndex : Obligations.DecodeIndex := by
  unfold Obligations.DecodeIndex
  intro s v slot d table raw hs hd hc hb hw hbw hraw
  have hk : d.kind = .index := by rw [Slot.kind, hc]
  have hraw : (readBits (s.view v) d.byte d.bit d.width).toNat = raw := by
    rw [hraw, readBits, readField_toNat _ _ _ (by omega), fieldShift]
  refine ⟨fun hshort => ?_, fun hin hzero => ?_, fun hin habove => ?_, fun hin hone hlt => ?_⟩
  · exact answers_decoderOf_short hs hd hk (by rw [Slot.req, hc]; exact Nat.lt_succ_of_le hshort)
  · exact answers_decoderOf_absent hs hd hk (slotDecode_index_of_zero hc hin (hraw.trans hzero))
  · exact answers_decoderOf hs hd hk (slotDecode_index_of_above hc hin (by rwa [hraw]))
  · exact answers_decoderOf_some hs hd hk
      (slotDecode_index_of_getElem hc hin (by omega) (List.getElem?_eq_getElem hlt))

/-- Settles O31: a string of the table is replaced by its least position plus one, which fits in the field. -/
theorem encodeIndex : Obligations.EncodeIndex := by
  unfold Obligations.EncodeIndex
  intro s v slot d table u hs hd hc hok hv
  have hk : d.kind = .index := by rw [Slot.kind, hc]
  obtain ⟨-, -, hindex, -⟩ := (slotOk_iff s.cfg d).1 hok
  obtain ⟨⟨hw1, hw8⟩, ⟨hb1, hb8⟩, ⟨-, htable⟩, -⟩ := hindex table hc
  refine ⟨fun hshort => ?_, fun hin hu => ?_, fun hin p hp hpu hleast => ?_⟩
  · exact answers_encoderOf_short hs hd hk hv rfl (by rw [Slot.req, hc]; exact Nat.lt_succ_of_le hshort)
  · exact answers_encoderOf_noEffect hs hd hk hv rfl (slotEncode_index_of_not_mem hc hin hu)
  · have hshape : wellShaped d.bit d.width = true := by
      rw [wellShaped_iff]
      omega
    obtain ⟨t, ha, hst⟩ := encoderOf_stores hs hd hk hv rfl (slotEncode_index_of_least hc hin hpu hleast) hin
    exact ⟨t, _, ha, hst, fun j hj => fieldByte_getLsbD _ _ hshape (by omega) hj⟩

/-! ### The keyed commands (R211 to R213) -/

/-- Settles O32: the key of the statement is the masked bytes, which the decoder looks up. -/
theorem decodeKeyed : Obligations.DecodeKeyed := by
  unfold Obligations.DecodeKeyed
  intro s v slot d map K hs hd hc hok
  have hk : d.kind = .keyed := by rw [Slot.kind, hc]
  obtain ⟨-, -, -, hkeyed, -⟩ := (slotOk_iff s.cfg d).1 hok
  obtain ⟨hbit, hw, -, -, hnodup, -⟩ := hkeyed map hc
  refine ⟨fun hshort => ?_, fun hin hK hbits hzero => ?_⟩
  · exact answers_decoderOf_short hs hd hk (by rwa [Slot.req, hc])
  · have hkey : kmask d.bit d.width (subseq (s.view v) d.byte (keyLength d.bit d.width)) = K := by
      refine kmask_eq_of_bits hbit hw (subseq_length _ _ _ hin) hK (fun i hi j hj hf => ?_) hzero
      rw [byteAt_subseq _ _ _ _ (hK ▸ hi), hbits i hi j hj hf]
    refine ⟨fun u hu => ?_, fun hu => ?_⟩
    · exact answers_decoderOf_some hs hd hk (slotDecode_keyed_of_mem hc hnodup hin hkey hu)
    · exact answers_decoderOf_some hs hd hk (slotDecode_keyed_of_not_mem hc hin hkey hu)

/-- Settles O33: the encoder finds the string's first pair, and merges its key into the field. -/
theorem encodeKeyed : Obligations.EncodeKeyed := by
  unfold Obligations.EncodeKeyed
  intro s v slot d map x hs hd hc hok hv hx
  have hk : d.kind = .keyed := by rw [Slot.kind, hc]
  obtain ⟨-, -, -, hkeyed, -⟩ := (slotOk_iff s.cfg d).1 hok
  obtain ⟨hbit, hw, -, hkeys, -⟩ := hkeyed map hc
  refine ⟨fun hshort => ?_, fun hin hunknown => ?_, fun hin before after key u hxu hmap hfirst => ?_⟩
  · exact answers_encoderOf_short hs hd hk hv hx (by rwa [Slot.req, hc])
  · exact answers_encoderOf_noEffect hs hd hk hv hx (slotEncode_keyed_of_unknown hc hx hin hunknown)
  · have hfind : map.find? (fun e => e.2 == u) = some (key, u) := by
      have hbefore : before.find? (fun e => e.2 == u) = none := by simpa using hfirst
      rw [hmap, List.find?_append, hbefore, Option.none_or]
      exact List.find?_cons_of_pos (beq_self_eq_true u)
    obtain ⟨hlen, -⟩ := hkeys (key, u) (List.mem_of_find?_eq_some hfind)
    have hnew := keyedBytes_length hin key
    subst hxu
    obtain ⟨t, ha, hst⟩ := encoderOf_stores hs hd hk hv hx (slotEncode_keyed_of_find hc hin hfind) (by rwa [hnew])
    exact ⟨t, _, ha, hst, hnew, fun i hi j hj => keyedBytes_getLsbD hbit hw hin hlen (hnew ▸ hi) hj⟩

/-! ### The supplied codecs (R218, R219) -/

/-- Settles O34: by what is supplied and what it answers. -/
theorem customCodecs : Obligations.CustomCodecs := by
  unfold Obligations.CustomCodecs
  intro s v slot d dec enc x hf hd hc
  have hk : d.kind = .custom := by rw [Slot.kind, hc]
  have hdec : slotDecode s.cfg.num d (s.view v) = decCustom dec (s.view v) := by rw [slotDecode, hc]
  have henc : slotEncode s.cfg.num d (s.view v) x = encCustom enc (s.view v) x := by simp only [slotEncode, hc]
  refine ⟨fun he => ⟨?_, ?_, ?_⟩, fun he hv => ⟨?_, ?_, ?_⟩⟩
  · rintro rfl
    exact answers_decoderOf_absent ⟨hf, he⟩ hd hk hdec
  · rintro f rfl hnone
    exact answers_decoderOf_absent ⟨hf, he⟩ hd hk (by rw [hdec, decCustom, hnone]; rfl)
  · rintro f y rfl hsome
    exact answers_decoderOf_some ⟨hf, he⟩ hd hk (by rw [hdec, decCustom, hsome]; rfl)
  · rintro rfl
    exact answers_encoderOf_unchanged ⟨hf, he⟩ hd hk hv rfl henc
  · rintro f rfl hlen
    exact raises_encoderOf_fails ⟨hf, he⟩ hd hk hv rfl (henc.trans (if_neg hlen))
  · rintro f rfl hlen
    exact ⟨_, answers_encoderOf_written ⟨hf, he⟩ hd hk hv rfl (henc.trans (if_pos hlen)), stored_store s 0 _ hv⟩

end Sys2Proof.Machine
end

section
/-! PROOFS. The slot operations (43_codec.md R226, R227): SLOT_NOTIFY by what the slot's decode gives and whether it is
the cell's value, SLOT_WRITE by what the slot's encode gives. -/

namespace Sys2Proof.Machine

/-! ### SLOT_NOTIFY (R226) -/

section
variable {s : State} {n : Nat} {d : Slot} {x : Value}

/-- Writing a cell back leaves the cells as they are. -/
theorem set_cellOf (h : n < s.dedup.length) : s.dedup.set n (cellOf s n) = s.dedup := by
  rw [cellOf, List.getD_eq_getElem _ _ h, List.set_getElem_self]

theorem cellOf_eq_some_iff : cellOf s n = some x ↔ s.dedup[n]? = some (some x) := by
  rw [cellOf, List.getD_eq_getElem?_getD]
  cases s.dedup[n]? <;> simp

theorem notifyNews_of_none (h : (slotSeen s d).value = none) : notifyNews s n d = false := by
  rw [notifyNews, h]
  rfl

theorem notifyNews_of_some (h : (slotSeen s d).value = some x) : notifyNews s n d = (cellOf s n != some x) := by
  rw [notifyNews, h]
  rfl

/-- Nothing new leaves every cell, and emits the decode's logs alone. -/
theorem notifySlot_of_no_news (hn : n < s.dedup.length) (h : notifyNews s n d = false) :
    notifySlot s n d = { s with events := s.events ++ (slotSeen s d).logs } := by
  have hcell : notifyCell s n d = cellOf s n := by simp [notifyCell, h]
  have hevents : notifyEvents s n d = (slotSeen s d).logs := by
    rw [notifyEvents, h]
    cases (slotSeen s d).value <;> exact List.append_nil _
  rw [notifySlot, hcell, set_cellOf hn, hevents]

/-- A new value is recorded in its cell and published. -/
theorem notifySlot_of_news (hx : (slotSeen s d).value = some x) (h : notifyNews s n d = true) :
    notifySlot s n d = { s with
      dedup := s.dedup.set n (some x)
      events := s.events ++ (slotSeen s d).logs ++ [.publish n x] } := by
  have hcell : notifyCell s n d = some x := by rw [notifyCell, if_pos h, hx]
  have hevents : notifyEvents s n d = (slotSeen s d).logs ++ [.publish n x] := by simp [notifyEvents, hx, h]
  rw [notifySlot, hcell, hevents, ← List.append_assoc]

theorem notifyResponse_of_none (h : (slotSeen s d).value = none) : notifyResponse s n d = ⟨.absent, .empty⟩ := by
  rw [notifyResponse, h]

theorem notifyResponse_of_some (h : (slotSeen s d).value = some x) :
    notifyResponse s n d = ⟨.ok, .bool (notifyNews s n d)⟩ := by rw [notifyResponse, h]

end

/-- SLOT_NOTIFY of a slot that can be read runs its body. -/
theorem answers_slotNotify {s : State} {slot : BitVec 8} {d : Slot} (hs : Ready s .empty)
    (hd : s.cfg.slots[slot.toNat]? = some d) (hm : d.mode ≠ .w) :
    Answers (.slotNotify slot) s (notifyResponse s slot.toNat d) (notifySlot s slot.toNat d) :=
  answers_of_body rfl hs rfl ((withSlot_some hd _).trans (if_neg hm))

/-- Settles O36: by the two checks, and then by whether a value is decoded and is the cell's. -/
theorem slotNotifyPublishesNewValues : Obligations.SlotNotifyPublishesNewValues := by
  unfold Obligations.SlotNotifyPublishesNewValues
  intro s slot hs hcells
  refine ⟨fun hlen => raises_of_body rfl hs rfl (withSlot_none hlen _), fun d r hd hr => ?_⟩
  change r = slotSeen s d at hr
  subst hr
  have hn : slot.toNat < s.dedup.length := by
    rw [hcells]
    exact (List.getElem?_eq_some_iff.1 hd).1
  refine ⟨fun hm => ?_, fun hm hnone => ?_, fun x hm hx hcell => ?_, fun x hm hx hcell => ?_⟩
  · exact raises_of_body rfl hs rfl ((withSlot_some hd _).trans (if_pos hm))
  · have h := answers_slotNotify hs hd hm
    rwa [notifyResponse_of_none hnone, notifySlot_of_no_news hn (notifyNews_of_none hnone)] at h
  · have hnews : notifyNews s slot.toNat d = false := by
      rw [notifyNews_of_some hx, cellOf_eq_some_iff.2 hcell, bne_self_eq_false]
    have h := answers_slotNotify hs hd hm
    rwa [notifyResponse_of_some hx, notifySlot_of_no_news hn hnews, hnews] at h
  · have hnews : notifyNews s slot.toNat d = true := by
      rw [notifyNews_of_some hx]
      exact bne_iff_ne.2 (mt cellOf_eq_some_iff.1 hcell)
    have h := answers_slotNotify hs hd hm
    rwa [notifyResponse_of_some hx, notifySlot_of_news hx hnews, hnews] at h

/-! ### SLOT_WRITE (R227) -/

section
variable {s : State} {slot : BitVec 8} {d : Slot} {x : Value} {e : Encoded}

/-- SLOT_WRITE that passes its checks ends in what the slot's encoder gives for the pending command buffer. -/
theorem exec_slotWrite (hs : Ready s (.value x)) (hd : s.cfg.slots[slot.toNat]? = some d) (hm : d.mode ≠ .r)
    (hx : kindTakes d.kind x = true) (he : slotEncode s.cfg.num d (s.view .v1) x = e) :
    exec (.slotWrite slot) s = .next (s.perform (slotWriteEffect slot s e)) := by
  refine (command_run (.slotWrite slot) takesValue _ s x hs.1 (by rw [hs.2]; rfl)).trans ?_
  rw [withSlot_some hd, if_neg hm, whenTakes_true hx, he]

end

/-- Settles O37: by the three checks, and then by the outcome of the encode. -/
theorem slotWriteMarksDirty : Obligations.SlotWriteMarksDirty := by
  unfold Obligations.SlotWriteMarksDirty
  intro s slot x hs
  refine ⟨fun hlen => raises_of_body rfl hs rfl (withSlot_none hlen _), fun d hd => ⟨fun hm => ?_, fun hm hx => ?_,
    fun hm hx => ⟨fun V he => ?_, fun logs he => ?_, fun c he => ?_⟩⟩⟩
  · exact raises_of_body rfl hs rfl ((withSlot_some hd _).trans (if_pos hm))
  · exact raises_of_body rfl hs rfl ((withSlot_some hd _).trans ((if_neg hm).trans (whenTakes_false hx _ _)))
  · exact ⟨s.store .v1 0 V, exec_slotWrite hs hd hm hx he, stored_store s 0 V rfl⟩
  · exact exec_slotWrite hs hd hm hx he
  · exact exec_slotWrite hs hd hm hx he

end Sys2Proof.Machine
end

section
/-! PROOFS. The checksum (44_frame.md R240 to R242), the frames HPFE builds (R252 to R256) and their transmission
(R257). Every builder is `build` with its preamble, category and data, so one law says what all of them do. -/

namespace Sys2Proof

/-! ### The checksum function (R240) -/

theorem sum8_toNat (B : List Byte) : (sum8 B).toNat = (B.map BitVec.toNat).sum % 256 := by
  induction B with
  | nil => rfl
  | cons b bs ih =>
    rw [sum8, BitVec.toNat_add, ih, List.map_cons, List.sum_cons]
    omega

/-- The checksum brings the sum to 0. -/
@[simp] theorem sum8_append_ck (B : List Byte) : sum8 (B ++ [ck B]) = 0 := by
  rw [sum8_append, sum8, sum8, ck]
  simp

/-- Settles O38: the sum is a sum of numbers modulo 256, by induction on the bytes, and the checksum is its
complement. -/
theorem checksumMakesTheSumZero : Obligations.ChecksumMakesTheSumZero := by
  unfold Obligations.ChecksumMakesTheSumZero
  intro B
  refine ⟨sum8_toNat B, ?_, sum8_append_ck B⟩
  rw [ck, BitVec.toNat_sub, sum8_toNat]
  rfl

/-! ### Slices by their last byte -/

theorem Memory.slice_succ (m : Memory) (off n : Nat) : m.slice off (n + 1) = m.slice off n ++ [m.read (off + n)] := by
  simp [Memory.slice, List.range_succ]

theorem Memory.take_slice (m : Memory) (off : Nat) {k n : Nat} (h : k ≤ n) :
    (m.slice off n).take k = m.slice off k := by
  rw [Memory.slice, ← List.map_take, List.take_range, Nat.min_eq_left h, Memory.slice]

/-- A write at or beyond the end of a slice leaves the slice as it is. -/
theorem Memory.slice_write_of_le (m : Memory) (b : Byte) {off n a : Nat} (h : off + n ≤ a) :
    (m.write a b).slice off n = m.slice off n := by
  refine List.map_congr_left fun i hi => ?_
  have hi : i < n := List.mem_range.1 hi
  rw [Memory.read_write, if_neg (by omega)]

end Sys2Proof

namespace Sys2Proof.Machine

/-! ### CK_GEN and CK_CHK (R241, R242) -/

/-- The state CK_GEN leaves: the checksum of the bytes before the last one stored as the last one (R241). -/
def genChecksum (s : State) : State := s.store .v2 (s.txbLen - 1) [ck ((s.view .v2).take (s.txbLen - 1))]

/-- A frame whose checksum CK_GEN made is checksum-valid (R242). -/
theorem sum8_view_genChecksum {s : State} (h : 1 ≤ s.txbLen) : sum8 ((genChecksum s).view .v2) = 0 := by
  obtain ⟨n, hn⟩ : ∃ n, s.txbLen = n + 1 := ⟨s.txbLen - 1, by omega⟩
  have hview : (genChecksum s).view .v2 = s.txb.slice 0 n ++ [ck (s.txb.slice 0 n)] := by
    calc (genChecksum s).view .v2
      _ = (s.txb.write n (ck (s.txb.slice 0 n))).slice 0 (n + 1) := by
        simp [genChecksum, State.store, State.view, Memory.writeAll, hn, Memory.take_slice]
      _ = s.txb.slice 0 n ++ [ck (s.txb.slice 0 n)] := by
        rw [Memory.slice_succ, Memory.slice_write_of_le _ _ (by omega), Memory.read_write, if_pos (Nat.zero_add n)]
  rw [hview, sum8_append_ck]

theorem answers_ckGen {s : State} (hs : Ready s .empty) (h : 5 ≤ s.txbLen) :
    Answers .ckGen s ⟨.ok, .byte (ck ((s.view .v2).take (s.txbLen - 1)))⟩ (genChecksum s) := by
  refine answers_of_body rfl hs rfl ((if_neg (Nat.not_lt.2 h)).trans ?_)
  rw [genChecksum, State.view, Memory.take_slice _ _ (Nat.sub_le _ _)]
  rfl

/-- Settles O39: by whether a frame is in TXB; CK_GEN is a store of one byte. -/
theorem checksumCommands : Obligations.ChecksumCommands := by
  unfold Obligations.ChecksumCommands
  intro s hs
  refine ⟨fun hshort => raises_of_body rfl hs rfl (if_pos hshort), fun hlen => ?_,
    fun v => answers_of_body rfl hs rfl rfl⟩
  exact ⟨genChecksum s, answers_ckGen hs hlen, stored_store s _ _ rfl, sum8_view_genChecksum (by omega)⟩

/-! ### Building (R252 to R256) -/

theorem build_view_v2 (s : State) (pre cat : Byte) (data : List Byte) :
    (build s pre cat data).view .v2 = frameBytes s.cfg pre cat data := by
  have h := Memory.slice_writeAll s.txb 0 (frameBytes s.cfg pre cat data)
  rwa [frameBytes_length] at h

/-- `build` builds its frame and nothing else (R252). -/
theorem built_build (s : State) (pre cat : Byte) (data : List Byte) : Built s (build s pre cat data) pre cat data := by
  refine ⟨rfl, build_view_v2 s pre cat data, fun a ha => ?_⟩
  rw [build_txb, Memory.read_writeAll, frameBytes_length, if_neg (by omega)]

/-- Settles O42: each serializer answers with its `build`. -/
theorem serializersBuildTheirFrames : Obligations.SerializersBuildTheirFrames := by
  unfold Obligations.SerializersBuildTheirFrames
  intro s hs
  refine ⟨⟨serInitBody s, ?_, built_build s _ _ _⟩, ⟨serStdBody s, ?_, built_build s _ _ _⟩,
    ⟨serExtBody s, ?_, built_build s _ _ _⟩, ⟨serCmdBody s, ?_, built_build s _ _ _⟩⟩
  · exact answers_of_body rfl hs rfl rfl
  · exact answers_of_body rfl hs rfl rfl
  · exact answers_of_body rfl hs rfl rfl
  · exact answers_of_body rfl hs rfl rfl

/-- A row of a frame HPFE sends runs its builder unless the engine is faulted (log 7). -/
theorem transmitFrame_of_not_faulted {s : State} (h : s.faulted = false) (body : State → State) :
    transmitFrame body s = .next ((body s).respond ⟨.ok, .empty⟩) := by simp [transmitFrame, h]

/-- Settles O45: each row runs the serializer of its rule. -/
theorem frameTxRowsBuildTheirFrames : Obligations.FrameTxRowsBuildTheirFrames := by
  unfold Obligations.FrameTxRowsBuildTheirFrames
  intro s dir cat hf
  exact ⟨⟨serInitBody s, transmitFrame_of_not_faulted hf _, built_build s _ _ _⟩,
    ⟨serStdBody s, transmitFrame_of_not_faulted hf _, built_build s _ _ _⟩,
    ⟨serExtBody s, transmitFrame_of_not_faulted hf _, built_build s _ _ _⟩,
    ⟨serCmdBody s, transmitFrame_of_not_faulted hf _, built_build s _ _ _⟩⟩

/-! ### Transmission (R257) -/

/-- Settles O44: by whether a frame is in TXB. -/
theorem transmitSendsTheBuiltFrame : Obligations.TransmitSendsTheBuiltFrame := by
  unfold Obligations.TransmitSendsTheBuiltFrame
  intro s hs
  exact ⟨fun hzero => answers_of_body rfl hs rfl (if_pos hzero), fun hlen => answers_of_body rfl hs rfl (if_neg hlen)⟩

end Sys2Proof.Machine
end

section
/-! PROOFS. The parser (44_frame.md R244 to R250). What alignment leaves decides everything PARSE does, so each outcome
is a law about the aligned bytes; the progress claims are drawn from them. -/

namespace Sys2Proof

/-- What the checks of R356 say of the frames and of the buffer. -/
structure Config.FrameChecks (c : Config) : Prop where
  rbCap : frameMax ≤ c.rbCap.toNat
  rxChunkMax : c.rxChunkMax ≤ c.rbCap.toNat
  minPacketSize : 1 ≤ c.minPacketSize
  initLenField : c.minPacketSize < c.initLenField.toNat
  pollLenField : c.minPacketSize < c.pollLenField.toNat
  cmdLenField : c.minPacketSize < c.cmdLenField.toNat
  prePoll : c.prePoll ∈ c.rxPreambles
  preCmd : c.preCmd ∈ c.rxPreambles
  preInit : c.preInit ∈ c.rxPreambles

/-- A well-formed configuration passes checks 1 to 4 and 6 (R356). -/
theorem Config.frameChecks_of_wf {c : Config} (h : c.wf = true) : c.FrameChecks := by
  have hnone := c.wf_iff.1 h
  unfold Config.firstFailing at hnone
  split_ifs at hnone with hcap hchunk hmin hlen hpay hpre
  simp only [lengthFieldOk, decide_eq_true_eq] at hlen
  obtain ⟨hinit, hpoll, hcmd, -⟩ := hlen
  obtain ⟨hprePoll, hpreCmd, hpreInit, -⟩ := hpre
  exact ⟨hcap, hchunk.2, hmin.1, hinit, hpoll, hcmd, hprePoll, hpreCmd, hpreInit⟩

end Sys2Proof

namespace Sys2Proof.Machine

/-! ### Step 1, align (R244) -/

section
variable {c : Config} {junk q : List Byte}

theorem align_of_head (h : ∀ b, q.head? = some b → b ∈ c.rxPreambles) : align c q = q := by
  cases q with
  | nil => rfl
  | cons b bs => simp [align, h b rfl]

/-- Bytes that are no preamble are discarded. -/
theorem align_append (h : ∀ b ∈ junk, b ∉ c.rxPreambles) : align c (junk ++ q) = align c q :=
  List.dropWhile_append_of_pos (by simpa using h)

/-- What alignment leaves starts with a preamble. -/
theorem align_head {b : Byte} (h : (align c q).head? = some b) : b ∈ c.rxPreambles := by
  have hnot := List.head?_dropWhile_not (fun b => !c.rxPreambles.contains b) q
  rw [← align, h] at hnot
  simpa using hnot

end

/-! ### Steps 2 to 5 on the aligned bytes (R245 to R248) -/

section
variable {s : State} {q F : List Byte} {L : Nat}

theorem parseBody_of_short (hq : align s.cfg s.rbQ = q) (h : q.length < 5) :
    parseBody s = (⟨.needMore, .empty⟩, { s with rbQ := q }) := by
  rw [parseBody, hq]
  split
  · next hnil => rw [hnil]
  · rw [parseAligned, if_pos h]

/-- With five aligned bytes the length field decides (R245). -/
theorem parseBody_of_header (hq : align s.cfg s.rbQ = q) (h5 : 5 ≤ q.length) : parseBody s = parseAligned s q := by
  have hne : q ≠ [] := by
    rintro rfl
    cases h5
  rw [parseBody, hq, if_neg hne]

theorem parseBody_of_badLength (hq : align s.cfg s.rbQ = q) (hL : L = (byteAt q 1).toNat) (h5 : 5 ≤ q.length)
    (hmin : L ≤ s.cfg.minPacketSize) :
    parseBody s = (⟨.badLength, .empty⟩, { s with
      rbQ := q.drop (min s.cfg.minPacketSize q.length)
      events := s.events ++ [logEvent .wBadLength] }) := by
  subst hL
  rw [parseBody_of_header hq h5, parseAligned, if_neg (by omega), if_pos hmin]

theorem parseBody_of_incomplete (hq : align s.cfg s.rbQ = q) (hL : L = (byteAt q 1).toNat) (h5 : 5 ≤ q.length)
    (hmin : s.cfg.minPacketSize < L) (hmore : q.length < L + 3) :
    parseBody s = (⟨.needMore, .empty⟩, { s with rbQ := q }) := by
  subst hL
  rw [parseBody_of_header hq h5, parseAligned, if_neg (by omega), if_neg (by omega), if_pos hmore]

/-- A whole frame leaves the buffer, whatever its checksum (R246). -/
theorem parseBody_of_whole (hq : align s.cfg s.rbQ = q) (hL : L = (byteAt q 1).toNat) (hF : F = q.take (L + 3))
    (h5 : 5 ≤ q.length) (hmin : s.cfg.minPacketSize < L) (hlen : L + 3 ≤ q.length) :
    parseBody s = finishFrame { s with rbQ := q.drop (L + 3) } F := by
  subst hL hF
  rw [parseBody_of_header hq h5, parseAligned, if_neg (by omega), if_neg (by omega), if_neg (by omega)]

theorem finishFrame_of_badChecksum (h : sum8 F ≠ 0) :
    finishFrame s F = (⟨.badChecksum, .empty⟩, s.emit [logEvent .wBadChecksum]) := by rw [finishFrame, if_pos h]

theorem finishFrame_of_valid (h : sum8 F = 0) :
    finishFrame s F = (⟨.ok, .cls (classOf s.cfg (byteAt F 3))⟩, acceptFrame s F) := by
  rw [finishFrame, if_neg (not_not.2 h)]

@[simp] theorem acceptFrame_fb_read (s : State) (F : List Byte) (a : Nat) :
    (acceptFrame s F).fb.read a = if a < F.length then byteAt F a else s.fb.read a :=
  (Memory.read_writeAll F s.fb 0 a).trans (by simp)

end

/-- PARSE answers with its body (R249). -/
theorem answers_parse {s : State} {r : Response} {t : State} (hs : Ready s .empty) (h : parseBody s = (r, t)) :
    Answers .parse s r t := answers_of_body rfl hs rfl (by rw [h]; rfl)

/-- Settles O40: alignment leaves `q`, and each clause is an outcome of the steps on `q`. -/
theorem parseOutcomes : Obligations.ParseOutcomes := by
  unfold Obligations.ParseOutcomes
  intro s junk q F L hs hbuf hjunk hhead hL hF
  have hq : align s.cfg s.rbQ = q := by rw [hbuf, align_append hjunk, align_of_head hhead]
  refine ⟨fun hnil => ?_, fun hshort => ?_, fun h5 hmin => ?_, fun h5 hmin hmore => ?_, fun h5 hmin hlen hsum => ?_,
    fun h5 hmin hlen hsum => ?_⟩
  · subst hnil
    exact answers_parse hs (parseBody_of_short hq (by decide))
  · exact answers_parse hs (parseBody_of_short hq hshort)
  · exact answers_parse hs (parseBody_of_badLength hq hL h5 hmin)
  · exact answers_parse hs (parseBody_of_incomplete hq hL h5 hmin hmore)
  · exact answers_parse hs ((parseBody_of_whole hq hL hF h5 hmin hlen).trans (finishFrame_of_badChecksum hsum))
  · have hFlen : F.length = L + 3 := by rw [hF, List.length_take_of_le hlen]
    refine ⟨_, _, answers_parse hs ((parseBody_of_whole hq hL hF h5 hmin hlen).trans (finishFrame_of_valid hsum)),
      rfl, ?_, fun a => ?_⟩
    · rw [← hFlen]
      rfl
    · rw [acceptFrame_fb_read, hFlen]

/-! ### Progress (R250) -/

/-- `q` holds less than the frame it begins announces: no whole header, or fewer bytes than its length field asks. -/
def Incomplete (q : List Byte) : Prop := q.length < 5 ∨ q.length < (byteAt q 1).toNat + 3

/-- A frame is no longer than `FRAME_MAX`, so bytes that do not hold a whole one are fewer. -/
theorem Incomplete.length_lt {q : List Byte} (h : Incomplete q) : q.length < frameMax := by
  have := (byteAt q 1).isLt
  rw [frameMax]
  obtain h | h := h <;> omega

/-- PARSE needs more and leaves the aligned bytes, or takes at least `min(MIN_PACKET_SIZE, 5)` of them. -/
theorem parseBody_progress (s : State) :
    ((parseBody s).1.status = .needMore ∧ (parseBody s).2.rbQ = align s.cfg s.rbQ ∧
      Incomplete (align s.cfg s.rbQ)) ∨
    ((parseBody s).1.status ≠ .needMore ∧
      (parseBody s).2.rbQ.length + min s.cfg.minPacketSize 5 ≤ (align s.cfg s.rbQ).length) := by
  generalize hq : align s.cfg s.rbQ = q
  generalize hL : (byteAt q 1).toNat = L
  by_cases h5 : q.length < 5
  · rw [parseBody_of_short hq h5]
    exact .inl ⟨rfl, rfl, .inl h5⟩
  have h5 : 5 ≤ q.length := Nat.le_of_not_lt h5
  by_cases hmin : L ≤ s.cfg.minPacketSize
  · rw [parseBody_of_badLength hq hL.symm h5 hmin]
    exact .inr ⟨nofun, by simp only [List.length_drop]; omega⟩
  have hmin : s.cfg.minPacketSize < L := Nat.lt_of_not_le hmin
  by_cases hmore : q.length < L + 3
  · rw [parseBody_of_incomplete hq hL.symm h5 hmin hmore]
    exact .inl ⟨rfl, rfl, .inr (hL ▸ hmore)⟩
  have hlen : L + 3 ≤ q.length := Nat.le_of_not_lt hmore
  have htaken : (q.drop (L + 3)).length + min s.cfg.minPacketSize 5 ≤ q.length := by
    rw [List.length_drop]
    omega
  rw [parseBody_of_whole hq hL.symm rfl h5 hmin hlen]
  by_cases hsum : sum8 (q.take (L + 3)) = 0
  · rw [finishFrame_of_valid hsum]
    exact .inr ⟨nofun, htaken⟩
  · rw [finishFrame_of_badChecksum hsum]
    exact .inr ⟨nofun, htaken⟩

section
variable {s : State}

/-- The progress claim against the whole buffer (R250). -/
theorem parseBody_removes (h : (parseBody s).1.status ≠ .needMore) :
    (parseBody s).2.rbQ.length + min s.cfg.minPacketSize 5 ≤ s.rbQ.length := by
  obtain ⟨hmore, -⟩ | ⟨-, hlen⟩ := parseBody_progress s
  · exact absurd hmore h
  · exact hlen.trans (align_length_le _ _)

/-- NEED_MORE leaves the aligned bytes, which do not hold a whole frame. -/
theorem parseBody_needMore (h : (parseBody s).1.status = .needMore) :
    (parseBody s).2.rbQ = align s.cfg s.rbQ ∧ Incomplete (align s.cfg s.rbQ) := by
  obtain ⟨-, hrest⟩ | ⟨hne, -⟩ := parseBody_progress s
  · exact hrest
  · exact absurd h hne

/-- A run of PARSEs comes to NEED_MORE within as many as there are bytes in the buffer, since each one before it takes
a byte. -/
theorem parseBody_reaches_needMore (hmin : 1 ≤ s.cfg.minPacketSize) :
    ∃ k ≤ s.rbQ.length, (parseBody ((fun u => (parseBody u).2)^[k] s)).1.status = .needMore := by
  induction hn : s.rbQ.length using Nat.strong_induction_on generalizing s with
  | _ n ih =>
    by_cases hmore : (parseBody s).1.status = .needMore
    · exact ⟨0, Nat.zero_le _, hmore⟩
    · have hlen := parseBody_removes hmore
      obtain ⟨k, hk, hend⟩ :=
        ih (parseBody s).2.rbQ.length (by omega) (s := (parseBody s).2) (by rwa [cfg_parseBody]) rfl
      refine ⟨k + 1, by omega, ?_⟩
      rwa [Function.iterate_succ_apply]

end

/-- Settles O41: each claim by what one PARSE does to the aligned bytes. -/
theorem parserProgress : Obligations.ParserProgress := by
  unfold Obligations.ParserProgress
  intro s hwf
  have hc := Config.frameChecks_of_wf hwf
  refine ⟨fun hs => answers_parse hs rfl, parseBody_removes, fun hmore => ?_,
    parseBody_reaches_needMore hc.minPacketSize, fun hfull => ?_⟩
  · obtain ⟨hleft, hinc⟩ := parseBody_needMore hmore
    rw [hleft]
    cases hq : align s.cfg s.rbQ with
    | nil => exact .inl rfl
    | cons b bs => exact .inr ⟨⟨b, align_head (congrArg List.head? hq), rfl⟩, hq ▸ hinc⟩
  · by_cases hmore : (parseBody s).1.status = .needMore
    · obtain ⟨hleft, hinc⟩ := parseBody_needMore hmore
      rw [hleft, hfull]
      exact hinc.length_lt.trans_le hc.rbCap
    · have hlen := parseBody_removes hmore
      have hmin := hc.minPacketSize
      omega

end Sys2Proof.Machine
end

section
/-! PROOFS. Whole frames through the parser: what HPFE serializes is accepted (44_frame.md R258), and what a FRAME_RX
row brings is what RX_PRI takes (45_arbiter.md R302, log 8). -/

namespace Sys2Proof.Machine

/-! ### A whole frame -/

/-- One frame that the parser accepts under a configuration (R244 to R247). -/
structure ValidFrame (c : Config) (F : List Byte) : Prop where
  preamble : ∀ b, F.head? = some b → b ∈ c.rxPreambles
  header : 5 ≤ F.length
  length : F.length = (byteAt F 1).toNat + 3
  lengthField : c.minPacketSize < (byteAt F 1).toNat
  sum : sum8 F = 0

/-- PARSE accepts the frame in the buffer and leaves nothing (R248, R249). -/
theorem parseBody_of_validFrame {s : State} {F : List Byte} (hF : ValidFrame s.cfg F) (hq : s.rbQ = F) :
    parseBody s = (⟨.ok, .cls (classOf s.cfg (byteAt F 3))⟩, acceptFrame { s with rbQ := [] } F) := by
  have halign : align s.cfg s.rbQ = F := by rw [hq, align_of_head hF.preamble]
  have hwhole : F = F.take ((byteAt F 1).toNat + 3) := by rw [← hF.length, List.take_length]
  have hrest : F.drop ((byteAt F 1).toNat + 3) = [] := by rw [← hF.length, List.drop_length]
  rw [parseBody_of_whole halign rfl hwhole hF.header hF.lengthField hF.length.ge, hrest, finishFrame_of_valid hF.sum]

/-! ### Serialized frames (R258) -/

section
variable {c : Config} {pre cat : Byte} {data : List Byte}

/-- The length field of a built frame is its length but for 3, where that is a byte (R252). -/
theorem byteAt_frameBytes_one (h : data.length + 2 < 256) :
    (byteAt (frameBytes c pre cat data) 1).toNat = data.length + 2 := Nat.mod_eq_of_lt h

theorem validFrame_frameBytes (hpre : pre ∈ c.rxPreambles) (hmin : c.minPacketSize < data.length + 2)
    (hmax : data.length + 2 < 256) : ValidFrame c (frameBytes c pre cat data) where
  preamble b hb := by
    obtain rfl : pre = b := by simpa [frameBytes, frameHead] using hb
    exact hpre
  header := by simp
  length := by rw [byteAt_frameBytes_one hmax, frameBytes_length]
  lengthField := by rwa [byteAt_frameBytes_one hmax]
  sum := sum8_append_ck _

end

/-- Data of two bytes less than a length field within the bounds of R356. -/
theorem dataLength_bounds {c : Config} (hc : c.FrameChecks) {L : Byte} {data : List Byte}
    (hL : c.minPacketSize < L.toNat) (hdata : data.length = L.toNat - 2) :
    c.minPacketSize < data.length + 2 ∧ data.length + 2 < 256 := by
  have hmin := hc.minPacketSize
  have hbyte := L.isLt
  omega

/-- Every serializer runs `build` with a preamble that the parser knows and data within the bounds of R356 (R253 to
R256). -/
theorem exec_serializer {s : State} {i : Instr} {cat : Byte} (hwf : s.cfg.wf = true) (hs : Ready s .empty)
    (hi : (i = .serInit ∧ cat = s.cfg.catInit) ∨ (i = .serStd ∧ cat = s.cfg.catStd) ∨
      (i = .serExt ∧ cat = s.cfg.catExtra) ∨ (i = .serCmd ∧ cat = s.cfg.cmdCategory)) :
    ∃ pre data, exec i s = .next ((build s pre cat data).respond ⟨.ok, .empty⟩) ∧ pre ∈ s.cfg.rxPreambles ∧
      s.cfg.minPacketSize < data.length + 2 ∧ data.length + 2 < 256 := by
  have hc := Config.frameChecks_of_wf hwf
  have hpoll := dataLength_bounds hc (data := zeros (s.cfg.pollLenField.toNat - 2)) hc.pollLenField (by simp [zeros])
  obtain ⟨rfl, rfl⟩ | ⟨rfl, rfl⟩ | ⟨rfl, rfl⟩ | ⟨rfl, rfl⟩ := hi
  · exact ⟨_, _, command_empty .serInit _ s hs, hc.preInit,
      dataLength_bounds hc hc.initLenField (Config.initPayload_length_of_wf hwf)⟩
  · exact ⟨_, _, command_empty .serStd _ s hs, hc.prePoll, hpoll⟩
  · exact ⟨_, _, command_empty .serExt _ s hs, hc.prePoll, hpoll⟩
  · exact ⟨_, _, command_empty .serCmd _ s hs, hc.preCmd,
      dataLength_bounds hc hc.cmdLenField (view_v1_length s)⟩

/-- Settles O43: the frame a serializer builds is one that the parser accepts. -/
theorem serializedFramesParse : Obligations.SerializedFramesParse := by
  unfold Obligations.SerializedFramesParse
  intro s t u i cat hwf hs hi ht hu hcfg hbuf
  obtain ⟨pre, data, hexec, hpre, hmin, hmax⟩ := exec_serializer hwf hs hi
  obtain rfl : (build s pre cat data).respond ⟨.ok, .empty⟩ = t := by simpa [hexec] using ht
  rw [State.respond_view, build_view_v2] at hbuf ⊢
  have hF : ValidFrame u.cfg (frameBytes s.cfg pre cat data) := by
    rw [hcfg]
    exact validFrame_frameBytes hpre hmin hmax
  refine ⟨hF.sum, byteAt_frameBytes_one hmax, _, answers_parse hu (parseBody_of_validFrame hF hbuf), rfl,
    acceptFrame_view_v3 _ _, ?_⟩
  rw [hcfg]
  rfl

/-! ### The data port is not read by RX_PRI's body -/

section
variable (s : State) (d : Data)

theorem parseBody_withData :
    parseBody { s with data := d } = ((parseBody s).1, { (parseBody s).2 with data := d }) := by
  simp only [parseBody, parseAligned, finishFrame]
  split_ifs <;> rfl

theorem dispatchBody_withData :
    dispatchBody { s with data := d } = ((dispatchBody s).1, { (dispatchBody s).2 with data := d }) := by
  simp only [dispatchBody]
  split_ifs <;> rfl

theorem afterParse_withData (p : Response × State) :
    afterParse (p.1, { p.2 with data := d }) = ((afterParse p).1, { (afterParse p).2 with data := d }) := by
  simp only [afterParse, dispatchBody_withData]
  split_ifs <;> rfl

theorem rxPriBody_withData :
    rxPriBody { s with data := d } = ((rxPriBody s).1, { (rxPriBody s).2 with data := d }) := by
  have htake : takeBatch { s with data := d } = { takeBatch s with data := d } := rfl
  rw [rxPriBody, htake, parseBody_withData, afterParse_withData, ← rxPriBody]

end

/-! ### Received frames (log 8) -/

section
variable {s : State} {F : List Byte}

/-- A batch that takes the whole transport into an empty buffer (R302). -/
theorem takeBatch_of_fits (hq : s.rbQ = []) (hrx : s.priRx = F) (hchunk : F.length ≤ s.cfg.rxChunkMax)
    (hcap : F.length ≤ s.cfg.rbCap.toNat) :
    takeBatch s = { s with rbQ := F, priRx := [], extTx := s.extTx ++ mirrored s } := by
  have hbatch : priBatch s = F.length := by
    rw [priBatch, State.availPri, hrx, hq, List.length_nil]
    omega
  rw [takeBatch, hbatch, hq, hrx, List.take_length, List.drop_length, List.nil_append]

/-- The state in which RX_PRI has taken and accepted the frame `F`, the whole of the transport's input (R302). -/
def frameTaken (s : State) (F : List Byte) : State :=
  acceptFrame { s with rbQ := [], priRx := [], extTx := s.extTx ++ mirrored s } F

/-- A valid frame that comes in one batch is accepted, dispatched, and closes the transaction (R302). -/
theorem rxPriBody_of_validFrame (hF : ValidFrame s.cfg F) (hq : s.rbQ = []) (hrx : s.priRx = F)
    (hchunk : F.length ≤ s.cfg.rxChunkMax) (hcap : F.length ≤ s.cfg.rbCap.toNat) :
    rxPriBody s =
      (⟨.ok, .cls (classOf s.cfg (byteAt F 3))⟩, (dispatchBody (frameTaken s F)).2.closeTxn) := by
  have hparse : parseBody (takeBatch s) = (⟨.ok, .cls (classOf s.cfg (byteAt F 3))⟩, frameTaken s F) := by
    rw [takeBatch_of_fits hq hrx hchunk hcap]
    exact parseBody_of_validFrame hF rfl
  rw [rxPriBody, hparse]
  rfl

theorem receiveBytes_of_faulted (h : s.faulted = true) (F : List Byte) :
    receiveBytes F s = (s.arrive .pri F).respondFaulted := by rw [receiveBytes, if_pos h]

theorem receiveBytes_of_not_faulted (h : s.faulted = false) (F : List Byte) :
    receiveBytes F s = (rxPriBody (s.arrive .pri F)).2.respond (rxPriBody (s.arrive .pri F)).1 := by
  simp [receiveBytes, h]

/-- RX_PRI answers with its body (R302). -/
theorem answers_rxPri (hs : Ready s .empty) : Answers .rxPri s (rxPriBody s).1 (rxPriBody s).2 :=
  answers_of_body rfl hs rfl rfl

/-- The receipt of bytes is RX_PRI after their arrival (R302). -/
theorem exec_rxPri_receiveBytes (h : s.faulted = false) (F : List Byte) :
    ∃ u, exec .rxPri { s with data := .empty, priRx := s.priRx ++ F } = .next u ∧
      receiveBytes F s = { u with data := s.data } := by
  refine ⟨_, answers_rxPri ⟨h, rfl⟩, ?_⟩
  rw [receiveBytes_of_not_faulted h]
  have hdata := rxPriBody_withData { s with data := .empty, priRx := s.priRx ++ F } s.data
  change rxPriBody (s.arrive .pri F) = _ at hdata
  rw [hdata]
  rfl

/-- A valid frame that arrives at an empty engine is accepted: the received frame, the class, and the frame of the
whole receive path (R302). -/
theorem receiveBytes_of_validFrame {t : State} (ht : receiveBytes F s = t) (hf : s.faulted = false)
    (hF : ValidFrame s.cfg F) (hq : s.rbQ = []) (hrx : s.priRx = []) (hchunk : F.length ≤ s.cfg.rxChunkMax)
    (hcap : F.length ≤ s.cfg.rbCap.toNat) :
    t.resp = some ⟨.ok, .cls (classOf s.cfg (byteAt F 3))⟩ ∧ t.view .v3 = F ∧
      t.fbCat = classOf s.cfg (byteAt F 3) ∧ t.rbQ = [] ∧ t.priRx = [] ∧ t.txnState = .idle ∧ t.txnTmr = false ∧
      t = { s with
        fb := t.fb, fbLen := t.fbLen, fbCat := t.fbCat, txnState := .idle, txnTmr := false,
        dedup := t.dedup, extraSup := t.extraSup, events := t.events, extTx := t.extTx, resp := t.resp,
        dispatchCount := t.dispatchCount } := by
  have harrived : (s.arrive .pri F).priRx = F := (congrArg (· ++ F) hrx).trans (List.nil_append F)
  rw [receiveBytes_of_not_faulted hf, rxPriBody_of_validFrame (s := s.arrive .pri F) hF hq harrived hchunk hcap,
    dispatchBody_frame] at ht
  subst ht
  refine ⟨rfl, acceptFrame_view_v3 _ F, rfl, rfl, rfl, rfl, rfl, ?_⟩
  rw [hq, hrx]
  rfl

end

/-- A FRAME_RX row is the receipt of its header and the bytes after it. -/
theorem exec_frameRx {i : Instr} {b0 b1 b2 b3 : Byte}
    (hi : i = .frameRxPrePoll b1 b2 b3 ∧ b0 = 0x71 ∨ i = .frameRxPreCmd b1 b2 b3 ∧ b0 = 0xF1 ∨
      i = .frameRxPreInit b1 b2 b3 ∧ b0 = 0x31 ∨ i = .frameRxCatInit b0 b1 b2 ∧ b3 = 0x01 ∨
      i = .frameRxCatStd b0 b1 b2 ∧ b3 = 0x10 ∨ i = .frameRxCatExtra b0 b1 b2 ∧ b3 = 0x21) (s : State) :
    exec i s = .next (receiveBytes ([b0, b1, b2, b3] ++ restOf s.data) s) := by
  obtain ⟨rfl, rfl⟩ | ⟨rfl, rfl⟩ | ⟨rfl, rfl⟩ | ⟨rfl, rfl⟩ | ⟨rfl, rfl⟩ | ⟨rfl, rfl⟩ := hi <;> rfl

/-- Settles O46: a row is the receipt of its bytes, which is their arrival and RX_PRI; the last clause is the receipt
of a frame that the parser accepts. -/
theorem frameRxRowsReceiveTheFrame : Obligations.FrameRxRowsReceiveTheFrame := by
  unfold Obligations.FrameRxRowsReceiveTheFrame
  intro s i b0 b1 b2 b3 B hi hB
  rw [exec_frameRx hi s, ← hB]
  refine ⟨fun hf => ?_, fun hf => ?_, fun hf hwf hq hrx hpre hmin hlen hchunk hsum => ?_⟩
  · rw [receiveBytes_of_faulted hf]
    rfl
  · obtain ⟨u, hexec, hu⟩ := exec_rxPri_receiveBytes hf ([b0, b1, b2, b3] ++ B)
    exact ⟨u, hexec, congrArg _ hu⟩
  · have hc := Config.frameChecks_of_wf hwf
    have hmps := hc.minPacketSize
    have hFlen : ([b0, b1, b2, b3] ++ B).length = B.length + 4 := by simp
    have hF : ValidFrame s.cfg ([b0, b1, b2, b3] ++ B) :=
      { preamble := fun b hb => by
          obtain rfl : b0 = b := by simpa using hb
          exact hpre
        header := by omega
        length := by
          show _ = b1.toNat + 3
          omega
        lengthField := hmin
        sum := hsum }
    rw [← hFlen] at hchunk
    exact ⟨_, rfl, receiveBytes_of_validFrame rfl hf hF hq hrx hchunk (hchunk.trans hc.rxChunkMax)⟩

end Sys2Proof.Machine
end

section
/-! PROOFS. The arbiter's own elements (45_arbiter.md): what every instruction outside the arbiter keeps of them, the
transaction commands (R280 to R283), the timers (R295, R296, R309, R310) and the words of RD_STATUS (R312, R313). -/

namespace Sys2Proof.Machine

/-! ### Who writes the transaction state and the two proxy bits -/

/-- The transaction state and the two bits of proxy suppression (R37, R41, R43). -/
def State.arbiterBits (s : State) : TxnState × Bool × Bool := (s.txnState, s.proxyActive, s.pollDis)

theorem State.arbiterBits_eq_iff (s t : State) :
    t.arbiterBits = s.arbiterBits ↔
      t.txnState = s.txnState ∧ t.proxyActive = s.proxyActive ∧ t.pollDis = s.pollDis := by
  simp only [State.arbiterBits, Prod.mk.injEq]

/-- The commands that write one of them. -/
def arbiterCommands : List Instr :=
  [.txnStartInt, .txnStartExt, .txnStop, .rxPri, .rxExt, .flush, .evLoop, .evUpdate, .evTimeout, .evSettle, .evPstart]

theorem command_keeps_arbiterBits {α : Type} {i : Instr} {takes : Data → Option α} {body : α → Effect} {s t : State}
    (h : command i takes body s = .next t) (hb : ∀ d, (body d).Keeps State.arbiterBits s) :
    t.arbiterBits = s.arbiterBits :=
  command_keeps (fun _ _ => rfl) (fun _ _ => rfl) h hb

theorem arbiterBits_store (s : State) (v : View) (off : Nat) (B : List Byte) :
    (s.store v off B).arbiterBits = s.arbiterBits := by
  cases v <;> rfl

theorem arbiterBits_parseBody (s : State) : (parseBody s).2.arbiterBits = s.arbiterBits :=
  (congrArg State.arbiterBits (parseBody_frame s)).trans rfl

theorem arbiterBits_dispatchBody (s : State) : (dispatchBody s).2.arbiterBits = s.arbiterBits :=
  (congrArg State.arbiterBits (dispatchBody_frame s)).trans rfl

theorem encodeEffect_keeps_arbiterBits (v : View) (slot : BitVec 8) (s : State) (e : Encoded) :
    (encodeEffect v slot s e).Keeps State.arbiterBits s := by
  cases e with
  | written V => exact .done (arbiterBits_store s v 0 V)
  | noEffect logs => exact .done rfl
  | fails c => exact .raise

theorem slotWriteEffect_keeps_arbiterBits (slot : BitVec 8) (s : State) (e : Encoded) :
    (slotWriteEffect slot s e).Keeps State.arbiterBits s := by
  cases e with
  | written V => exact .done rfl
  | noEffect logs => exact .done rfl
  | fails c => exact .raise

theorem transmitFrame_keeps_arbiterBits {body : State → State} {s t : State}
    (hb : (body s).arbiterBits = s.arbiterBits) (h : transmitFrame body s = .next t) :
    t.arbiterBits = s.arbiterBits := by
  unfold transmitFrame at h
  split at h <;> cases h
  · rfl
  · exact hb

/-- An instruction that is neither a command of the arbiter nor a received frame keeps them: its body is followed
through its checks to the states it leaves. -/
theorem exec_keeps_arbiterBits {i : Instr} {s t : State} (hi : i ∉ arbiterCommands) (hrx : i.encoding ≠ .rxHeader)
    (h : exec i s = .next t) : t.arbiterBits = s.arbiterBits := by
  cases i with
  | txnStartInt | txnStartExt | txnStop | rxPri | rxExt | flush | evLoop | evUpdate | evTimeout | evSettle | evPstart =>
    simp [arbiterCommands] at hi
  | frameRxPrePoll | frameRxPreCmd | frameRxPreInit | frameRxCatInit | frameRxCatStd | frameRxCatExtra =>
    exact absurd rfl hrx
  | nop | rbSize | rbDiscardUntil | ckChk | serInit | serStd | serExt | serCmd =>
    exact command_keeps_arbiterBits h fun _ => .done rfl
  | rbPush | ckGen => exact command_keeps_arbiterBits h fun _ => .ite .raise (.done rfl)
  | rbPeek | rbPop =>
    refine command_keeps_arbiterBits h fun _ => ?_
    split
    · exact .raise
    · exact .done rfl
  | rdBits | rdBytes | rdArray => exact command_keeps_arbiterBits h fun _ => .ite .raise (.ite .raise (.done rfl))
  | wrBits v | wrBytes v =>
    exact command_keeps_arbiterBits h fun _ =>
      .whenWritable (.ite .raise (.ite .raise (.ite .raise (.done (arbiterBits_store s v _ _)))))
  | wrArray v =>
    exact command_keeps_arbiterBits h fun _ =>
      .whenWritable (.ite .raise (.ite .raise (.done (arbiterBits_store s v _ _))))
  | decTri | decScaled | decIndex | decKeyed | decCustom =>
    exact command_keeps_arbiterBits h fun _ => .withSlot fun _ => .whenKind (.done rfl)
  | encTri v slot | encScaled v slot | encIndex v slot | encKeyed v slot | encCustom v slot =>
    exact command_keeps_arbiterBits h fun _ =>
      .withSlot fun _ => .whenKind (.whenWritable (.whenTakes (encodeEffect_keeps_arbiterBits v slot s _)))
  | slotNotify => exact command_keeps_arbiterBits h fun _ => .withSlot fun _ => .ite .raise (.done rfl)
  | slotWrite slot =>
    exact command_keeps_arbiterBits h fun _ =>
      .withSlot fun _ => .ite .raise (.whenTakes (slotWriteEffect_keeps_arbiterBits slot s _))
  | parse => exact command_keeps_arbiterBits h fun _ => .ofPair (arbiterBits_parseBody s)
  | txSend => exact command_keeps_arbiterBits h fun _ => .ite (.done rfl) (.done rfl)
  | dispatch => exact command_keeps_arbiterBits h fun _ => .ofPair (arbiterBits_dispatchBody s)
  | rdStatus sel =>
    change execRdStatus sel s = .next t at h
    unfold execRdStatus at h
    split at h
    · cases h
      rfl
    · exact command_keeps_arbiterBits h fun _ => .done rfl
  | frameTxInit | frameTxStdPoll | frameTxExtPoll | frameTxCmd => exact transmitFrame_keeps_arbiterBits rfl h

/-! ### Transactions (R280 to R283) -/

/-- Settles O47: by whether the bus is idle. -/
theorem transactionStartAndStop : Obligations.TransactionStartAndStop := by
  unfold Obligations.TransactionStartAndStop
  intro s hs
  refine ⟨fun hidle => ⟨?_, ?_⟩, fun hbusy => ⟨?_, ?_⟩, answers_of_body rfl hs rfl rfl⟩
  · exact answers_of_body rfl hs rfl (if_pos hidle)
  · exact answers_of_body rfl hs rfl (if_pos hidle)
  · exact answers_of_body rfl hs rfl (if_neg hbusy)
  · exact answers_of_body rfl hs rfl (if_neg hbusy)

/-! ### Timers (R295, R296) -/

section
variable {s : State} (hs : Ready s .empty)
include hs

/-- The settle timer that is not armed expires without effect (R295). -/
theorem answers_evSettle_unarmed (h : s.settleTmr = false) : Answers .evSettle s ⟨.noEffect, .empty⟩ s :=
  answers_of_body rfl hs rfl (if_pos h)

/-- The poll-start timer that is not armed expires without effect (R295). -/
theorem answers_evPstart_unarmed (h : s.pstartTmr = false) : Answers .evPstart s ⟨.noEffect, .empty⟩ s :=
  answers_of_body rfl hs rfl (if_pos h)

end

/-- Settles O48: by whether the timer is armed. -/
theorem timeoutAndUnarmedTimers : Obligations.TimeoutAndUnarmedTimers := by
  unfold Obligations.TimeoutAndUnarmedTimers
  intro s hs
  refine ⟨fun harmed => ?_, fun hunarmed => ?_, answers_evSettle_unarmed hs, answers_evPstart_unarmed hs⟩
  · exact answers_of_body rfl hs rfl (if_neg (by simp [harmed]))
  · exact answers_of_body rfl hs rfl (if_pos hunarmed)

/-! ### Frames sent in an internal transaction (R304, R306, R309) -/

/-- The state after a frame built from `s` is sent in a new internal transaction. -/
def sendInternal (s : State) (pre cat : Byte) (data : List Byte) : State :=
  sendTxb (build (s.openTxn .internal) pre cat data)

/-- What is sent is the frame in TXB. -/
theorem sendInternal_priTx (s : State) (pre cat : Byte) (data : List Byte) :
    (sendInternal s pre cat data).priTx = s.priTx ++ (sendInternal s pre cat data).view .v2 := rfl

/-- Sending a frame is building it, opening the transaction and writing TXB to PRI. -/
theorem sendInternal_eq (s : State) (pre cat : Byte) (data : List Byte) :
    sendInternal s pre cat data = { build s pre cat data with
      txnState := .internal, txnTmr := true, priTx := s.priTx ++ (build s pre cat data).view .v2 } := rfl

theorem flushBody_of_clean {s : State} (hd : s.dirty = false) : flushBody s = (⟨.noEffect, .empty⟩, s) := if_pos hd

theorem flushBody_of_busy {s : State} (hd : s.dirty = true) (hbusy : s.txnState ≠ .idle) :
    flushBody s = (⟨.busy, .empty⟩, s) := by
  rw [flushBody, if_neg (by simp [hd]), if_pos hbusy]

/-- The FLUSH body on an idle bus (R304). -/
theorem flushBody_of_idle {s : State} (hd : s.dirty = true) (hidle : s.txnState = .idle) :
    flushBody s = (⟨.ok, .empty⟩,
      { sendInternal s s.cfg.preCmd s.cfg.cmdCategory (s.view .v1) with dirty := false, pcb := [] }) := by
  rw [flushBody, if_neg (by simp [hd]), if_neg (not_not.2 hidle)]
  rfl

/-- FLUSH answers with its body (R304). -/
theorem answers_flush {s : State} (hs : Ready s .empty) : Answers .flush s (flushBody s).1 (flushBody s).2 :=
  answers_of_body rfl hs rfl rfl

/-- Settles O53: by whether the pending command is dirty and the bus idle. -/
theorem flushSendsThePendingCommand : Obligations.FlushSendsThePendingCommand := by
  unfold Obligations.FlushSendsThePendingCommand
  intro s hs
  have hx := answers_flush hs
  refine ⟨fun hclean => ?_, fun hd hbusy => ?_, fun hd hidle => ?_⟩
  · rwa [flushBody_of_clean hclean] at hx
  · rwa [flushBody_of_busy hd hbusy] at hx
  · rw [flushBody_of_idle hd hidle] at hx
    exact ⟨_, _, built_build s _ _ _, hx, rfl, fun _ => rfl⟩

/-- The category of the poll EV_UPDATE sends (R306). -/
def pollCat (s : State) : Byte := if pollIsExtra s then s.cfg.catExtra else s.cfg.catStd

/-- A poll is a frame of zeros sent in an internal transaction, and one more on the counter (R306). -/
theorem sendPoll_eq (s : State) :
    sendPoll s = { sendInternal s s.cfg.prePoll (pollCat s) (zeros (s.cfg.pollLenField.toNat - 2)) with
      pollCnt := s.pollCnt + 1 } := by
  unfold sendPoll pollCat
  split <;> rfl

theorem pollIsExtra_iff (s : State) : pollIsExtra s = true ↔ s.pollCnt.toNat % 2 = 1 ∧ s.extraSup = true := by
  rw [pollIsExtra, Bool.and_eq_true, BitVec.getElem_eq_testBit_toNat, Nat.testBit_zero, decide_eq_true_eq]

/-- EV_UPDATE does nothing while polling is disabled (R306). -/
theorem answers_evUpdate_disabled {s : State} (hs : Ready s .empty) (h : s.pollDis = true) :
    Answers .evUpdate s ⟨.noEffect, .empty⟩ s := answers_of_body rfl hs rfl (if_pos h)

/-- EV_UPDATE on an idle bus sends its poll (R306). -/
theorem answers_evUpdate_idle {s : State} (hs : Ready s .empty) (hon : s.pollDis = false) (hidle : s.txnState = .idle) :
    Answers .evUpdate s ⟨.ok, .cls (if pollIsExtra s then .extra else .std)⟩ (sendPoll s) :=
  answers_of_body rfl hs rfl ((if_neg (by simp [hon])).trans (if_neg (not_not.2 hidle)))

/-- Settles O55: by whether polling is disabled, whether the bus is idle, and which poll is due. -/
theorem updateSendsOnePoll : Obligations.UpdateSendsOnePoll := by
  unfold Obligations.UpdateSendsOnePoll
  intro s hs
  refine ⟨answers_evUpdate_disabled hs, fun hon hbusy => ?_, fun hon hidle => ?_⟩
  · exact answers_of_body rfl hs rfl ((if_neg (by simp [hon])).trans (if_pos hbusy))
  · have hx := answers_evUpdate_idle hs hon hidle
    refine ⟨build s s.cfg.prePoll (pollCat s) (zeros (s.cfg.pollLenField.toNat - 2)), sendPoll s, fun hextra => ?_,
      fun hstd => ?_, sendPoll_eq s, BitVec.toNat_add s.pollCnt 1⟩
    · have hextra := (pollIsExtra_iff s).2 hextra
      rw [hextra] at hx
      refine ⟨?_, hx⟩
      rw [pollCat, hextra]
      exact built_build s _ _ _
    · have hstd : pollIsExtra s = false := by
        rw [← pollIsExtra_iff] at hstd
        simpa using hstd
      rw [hstd] at hx
      refine ⟨?_, hx⟩
      rw [pollCat, hstd]
      exact built_build s _ _ _

/-! ### The boot timers (R309, R310) -/

/-- Settles O56: by whether the timer is armed, whether a proxy is active and whether the bus is idle. -/
theorem bootTimersHandshakeAndPolling : Obligations.BootTimersHandshakeAndPolling := by
  unfold Obligations.BootTimersHandshakeAndPolling
  intro s hs
  refine ⟨answers_evSettle_unarmed hs, fun harmed => ?_, answers_evPstart_unarmed hs, fun harmed => ?_⟩
  · have harmed : ¬ s.settleTmr = false := by simp [harmed]
    refine ⟨fun hproxy => ?_, fun hproxy hbusy => ?_, fun hproxy hidle => ?_⟩
    · exact answers_of_body rfl hs rfl ((if_neg harmed).trans (if_pos hproxy))
    · exact answers_of_body rfl hs rfl
        ((if_neg harmed).trans ((if_neg (by simp [hproxy])).trans (if_pos hbusy)))
    · exact ⟨_, built_build s _ _ _, answers_of_body rfl hs rfl
        ((if_neg harmed).trans ((if_neg (by simp [hproxy])).trans (if_neg (not_not.2 hidle))))⟩
  · have harmed : ¬ s.pstartTmr = false := by simp [harmed]
    refine ⟨fun hproxy => ?_, fun hproxy => ?_⟩
    · exact answers_of_body rfl hs rfl ((if_neg harmed).trans (if_pos hproxy))
    · exact answers_of_body rfl hs rfl ((if_neg harmed).trans (if_neg (by simp [hproxy])))

/-! ### Status words (R48, R312) and NOP (R313) -/

/-- The two lengths do not overlap where each is within its range (R312). -/
theorem lengthsWord_toNat {s : State} (hq : s.rbQ.length < 2 ^ 16) (hfb : s.fbLen < 2 ^ 9) :
    s.lengthsWord.toNat = s.rbQ.length + 2 ^ 16 * s.fbLen := by
  have hhigh : (s.fbLen <<< 16) % 2 ^ 32 = 2 ^ 16 * s.fbLen := by
    rw [Nat.shiftLeft_eq]
    omega
  rw [State.lengthsWord, BitVec.toNat_or, BitVec.toNat_shiftLeft, BitVec.toNat_ofNat, BitVec.toNat_ofNat,
    Nat.mod_eq_of_lt (by omega), Nat.mod_eq_of_lt (by omega : s.fbLen < 2 ^ 32), hhigh, Nat.or_comm,
    ← Nat.two_pow_add_eq_or_of_lt hq, Nat.add_comm]

/-- RD_STATUS answers its word, faulted or not (R312, R347). -/
theorem answers_rdStatus {s : State} (h : s.faulted = true ∨ s.data = .empty) (sel : StatusSel) :
    Answers (.rdStatus sel) s ⟨.ok, .word (s.selectedWord sel)⟩ s := by
  cases hf : s.faulted with
  | true => exact if_pos hf
  | false =>
    have hd : s.data = .empty := h.resolve_left (by simp [hf])
    exact answers_of_body (execRdStatus_of_not_faulted hf sel) ⟨hf, hd⟩ rfl rfl

/-- Bit `i` of STATUS, by the fields of R48 from the least significant one. -/
theorem statusWord_getLsbD (s : State) {i : Nat} (hi : i < 32) :
    s.statusWord.getLsbD i =
      if i < 2 then s.txnState.code.getLsbD i else if i = 2 then s.txnTmr else if i = 3 then s.settleTmr
      else if i = 4 then s.pstartTmr else if i = 5 then s.pollDis else if i = 6 then s.extraSup
      else if i = 7 then s.proxyActive else if i = 8 then s.extAttached else if i = 9 then s.dirty
      else if i = 10 then s.faulted else if i < 16 then false
      else if i < 24 then s.faultCode.getLsbD (i - 16) else s.fbCat.code.getLsbD (i - 24) := by
  show BitVec.getLsbD (w := 5 + 3 + 8 + 5 + 1 + 1 + 1 + 1 + 1 + 1 + 1 + 1 + 1 + 2) _ i = _
  simp only [State.statusWord, BitVec.getLsbD_append, BitVec.getLsbD_ofBool]
  interval_cases i <;> simp

/-- A field of STATUS is its bits. -/
theorem statusWord_extractLsb'_eq (s : State) {w : Nat} (k : Nat) (f : BitVec w)
    (h : ∀ i < w, s.statusWord.getLsbD (k + i) = f.getLsbD i) : s.statusWord.extractLsb' k w = f := by
  refine BitVec.eq_of_getLsbD_eq fun i hi => ?_
  rw [BitVec.getLsbD_extractLsb', decide_eq_true hi, Bool.true_and, h i hi]

/-- Settles O57: RD_STATUS by whether the engine is faulted, and the fields of STATUS bit by bit. -/
theorem statusWordsAndNop : Obligations.StatusWordsAndNop := by
  unfold Obligations.StatusWordsAndNop
  intro s
  have hbit (i : Nat) (hi : i < 32) := statusWord_getLsbD s hi
  refine ⟨fun sel h => answers_rdStatus h sel, rfl, rfl, lengthsWord_toNat, ?_, hbit 2 (by decide), hbit 3 (by decide),
    hbit 4 (by decide), hbit 5 (by decide), hbit 6 (by decide), hbit 7 (by decide), hbit 8 (by decide),
    hbit 9 (by decide), hbit 10 (by decide), ?_, ?_, ?_, ?_, command_empty .nop _ s⟩
  · refine statusWord_extractLsb'_eq s 0 _ fun i hi => ?_
    rw [hbit _ (by omega), if_pos (by omega), Nat.zero_add]
  · refine statusWord_extractLsb'_eq s 11 _ fun i hi => ?_
    rw [hbit _ (by omega)]
    interval_cases i <;> rfl
  · refine statusWord_extractLsb'_eq s 16 _ fun i hi => ?_
    rw [hbit _ (by omega)]
    interval_cases i <;> rfl
  · refine statusWord_extractLsb'_eq s 24 _ fun i hi => ?_
    rw [hbit _ (by omega)]
    interval_cases i <;> rfl
  · refine statusWord_extractLsb'_eq s 27 _ fun i hi => ?_
    rw [hbit _ (by omega)]
    interval_cases i <;> simp
end Sys2Proof.Machine
end

section
/-! PROOFS. The receive paths and the tick (45_arbiter.md R300, R302, R303): no body reads the response port, so one
tick is its three commands in turn. -/

namespace Sys2Proof.Machine

/-! ### RX_EXT (R303) -/

theorem availExt_eq_zero_iff (s : State) : s.availExt = 0 ↔ s.extRx = [] := List.length_eq_zero_iff

theorem rxExtBody_of_nothing {s : State} (h : s.extAttached = false ∨ s.extRx = []) :
    rxExtBody s = (⟨.noEffect, .empty⟩, s) := by
  rw [← availExt_eq_zero_iff] at h
  rw [rxExtBody, if_pos h]

section
variable {s : State} (ha : s.extAttached = true) (hrx : s.extRx ≠ [])
include ha hrx

/-- Something waits on an attached EXT. -/
theorem not_extNothing : ¬ (s.extAttached = false ∨ s.availExt = 0) := by
  simp [ha, availExt_eq_zero_iff, hrx]

theorem rxExtBody_of_idle (htxn : s.txnState = .idle) :
    rxExtBody s = (⟨.ok, .empty⟩, forwardExt (s.openTxn .external).freezePolls) := by
  simp only [rxExtBody, if_neg (not_extNothing ha hrx), htxn]

theorem rxExtBody_of_external (htxn : s.txnState = .external) : rxExtBody s = (⟨.ok, .empty⟩, forwardExt s) := by
  simp only [rxExtBody, if_neg (not_extNothing ha hrx), htxn]

theorem rxExtBody_of_internal (htxn : s.txnState = .internal) : rxExtBody s = (⟨.busy, .empty⟩, contendExt s) := by
  simp only [rxExtBody, if_neg (not_extNothing ha hrx), htxn]

end

theorem contendExt_of_drop {s : State} (h : s.cfg.extContention = .drop) : contendExt s = s.dropExt (extBatch s) := by
  simp only [contendExt, h]

theorem contendExt_of_hold {s : State} (h : s.cfg.extContention = .hold) : contendExt s = s := by
  simp only [contendExt, h]

/-- What RX_EXT does in an internal transaction leaves the transaction and the proxy bits (R303). -/
theorem arbiterBits_contendExt (s : State) : (contendExt s).arbiterBits = s.arbiterBits := by
  cases h : s.cfg.extContention with
  | drop =>
    rw [contendExt_of_drop h]
    rfl
  | hold => rw [contendExt_of_hold h]

/-- RX_EXT answers with its body (R303). -/
theorem answers_rxExt {s : State} (hs : Ready s .empty) : Answers .rxExt s (rxExtBody s).1 (rxExtBody s).2 :=
  answers_of_body rfl hs rfl rfl

/-- Settles O52: by what waits on EXT, the transaction state and the policy of R303. -/
theorem receiveFromExternal : Obligations.ReceiveFromExternal := by
  unfold Obligations.ReceiveFromExternal
  rintro s n hs rfl
  have hx := answers_rxExt hs
  refine ⟨fun hdetached => ?_, fun hnil => ?_, fun ha hrx => ⟨fun htxn => ?_, fun htxn => ?_, fun htxn hdrop => ?_,
    fun htxn hhold => ?_⟩⟩
  · rwa [rxExtBody_of_nothing (.inl hdetached)] at hx
  · rwa [rxExtBody_of_nothing (.inr hnil)] at hx
  · rwa [rxExtBody_of_idle ha hrx htxn] at hx
  · rwa [rxExtBody_of_external ha hrx htxn] at hx
  · rwa [rxExtBody_of_internal ha hrx htxn, contendExt_of_drop hdrop] at hx
  · rwa [rxExtBody_of_internal ha hrx htxn, contendExt_of_hold hhold] at hx

/-! ### DISPATCH by the class of the frame (R297) -/

/-- A frame of a class that slots have. -/
theorem dispatchBody_of_slots {s : State} (h : s.fbCat = .std ∨ s.fbCat = .extra) :
    dispatchBody s = (⟨.ok, .empty⟩, { notifyAll s s.fbCat with extraSup := extraSupAfter s s.fbCat }) := if_pos h

theorem dispatchBody_of_no_slots {s : State} (h : ¬ (s.fbCat = .std ∨ s.fbCat = .extra)) :
    dispatchBody s = (⟨.noEffect, .empty⟩, s) := if_neg h

/-- DISPATCH answers with its body (R297). -/
theorem answers_dispatch {s : State} (hs : Ready s .empty) : Answers .dispatch s (dispatchBody s).1 (dispatchBody s).2 :=
  answers_of_body rfl hs rfl rfl

/-! ### The response port is not read by the bodies -/

section
variable (s : State) (r : Response)

theorem dispatchBody_respond : dispatchBody (s.respond r) = ((dispatchBody s).1, (dispatchBody s).2.respond r) := by
  by_cases h : s.fbCat = .std ∨ s.fbCat = .extra
  · rw [dispatchBody_of_slots h, dispatchBody_of_slots (s := s.respond r) h]
    rfl
  · rw [dispatchBody_of_no_slots h, dispatchBody_of_no_slots (s := s.respond r) h]

theorem contendExt_respond : contendExt (s.respond r) = (contendExt s).respond r := by
  cases h : s.cfg.extContention with
  | drop =>
    rw [contendExt_of_drop h, contendExt_of_drop (s := s.respond r) h]
    rfl
  | hold => rw [contendExt_of_hold h, contendExt_of_hold (s := s.respond r) h]

theorem rxExtBody_respond : rxExtBody (s.respond r) = ((rxExtBody s).1, (rxExtBody s).2.respond r) := by
  by_cases h : s.extAttached = false ∨ s.extRx = []
  · rw [rxExtBody_of_nothing h, rxExtBody_of_nothing (s := s.respond r) h]
  · obtain ⟨ha, hrx⟩ := not_or.1 h
    have ha : s.extAttached = true := by simpa using ha
    cases htxn : s.txnState with
    | idle =>
      rw [rxExtBody_of_idle ha hrx htxn, rxExtBody_of_idle (s := s.respond r) ha hrx htxn]
      rfl
    | external =>
      rw [rxExtBody_of_external ha hrx htxn, rxExtBody_of_external (s := s.respond r) ha hrx htxn]
      rfl
    | internal =>
      rw [rxExtBody_of_internal ha hrx htxn, rxExtBody_of_internal (s := s.respond r) ha hrx htxn, contendExt_respond]

theorem flushBody_respond : flushBody (s.respond r) = ((flushBody s).1, (flushBody s).2.respond r) := by
  cases hd : s.dirty with
  | false => rw [flushBody_of_clean hd, flushBody_of_clean (s := s.respond r) hd]
  | true =>
    by_cases hidle : s.txnState = .idle
    · rw [flushBody_of_idle hd hidle, flushBody_of_idle (s := s.respond r) hd hidle]
      rfl
    · rw [flushBody_of_busy hd hidle, flushBody_of_busy (s := s.respond r) hd hidle]

end

/-! ### The engine stays ready -/

section
variable {s : State} {d : Data} (hs : Ready s d)
include hs

theorem Ready.respond (r : Response) : Ready (s.respond r) d := hs

theorem Ready.parseBody : Ready (parseBody s).2 d := by
  rw [parseBody_frame]
  exact hs

theorem Ready.dispatchBody : Ready (dispatchBody s).2 d := by
  rw [dispatchBody_frame]
  exact hs

theorem Ready.rxPriBody : Ready (rxPriBody s).2 d := by
  rw [rxPriBody_frame]
  exact hs

theorem Ready.rxExtBody : Ready (rxExtBody s).2 d := by
  rw [rxExtBody_frame]
  exact hs

end

/-! ### A command after another: the new response is in place of the old one -/

section
variable {s : State} (hs : Ready s .empty) (r : Response)
include hs

theorem exec_dispatch_respond :
    exec .dispatch (s.respond r) = .next ((dispatchBody s).2.respond (dispatchBody s).1) := by
  have hx := answers_dispatch (hs.respond r)
  rwa [dispatchBody_respond] at hx

theorem exec_txnStop_respond : exec .txnStop (s.respond r) = .next (s.closeTxn.respond ⟨.ok, .empty⟩) :=
  command_empty .txnStop _ _ (hs.respond r)

theorem exec_rxExt_respond : exec .rxExt (s.respond r) = .next ((rxExtBody s).2.respond (rxExtBody s).1) := by
  have hx := answers_rxExt (hs.respond r)
  rwa [rxExtBody_respond] at hx

theorem exec_flush_respond : exec .flush (s.respond r) = .next ((flushBody s).2.respond (flushBody s).1) := by
  have hx := answers_flush (hs.respond r)
  rwa [flushBody_respond] at hx

end

/-! ### RX_PRI (R302) -/

theorem parseBody_status_ok {s : State} {c : FrameClass} (h : (parseBody s).1 = ⟨.ok, .cls c⟩) :
    (parseBody s).1.status = .ok := congrArg Response.status h

/-- A batch in which PARSE accepts no frame (R302). -/
theorem rxPriBody_of_not_ok {s : State} (h : (parseBody (takeBatch s)).1.status ≠ .ok) :
    rxPriBody s = parseBody (takeBatch s) := if_neg h

/-- A batch in which PARSE accepts a frame (R302). -/
theorem rxPriBody_of_ok {s : State} (h : (parseBody (takeBatch s)).1.status = .ok) :
    rxPriBody s =
      ((parseBody (takeBatch s)).1, (dispatchBody (parseBody (takeBatch s)).2).2.closeTxn) := if_pos h

/-- Settles O51: the batch is `takeBatch`, and what follows is by PARSE's answer. -/
theorem receiveFromPrimary : Obligations.ReceiveFromPrimary := by
  unfold Obligations.ReceiveFromPrimary
  rintro s n hs rfl
  have htaken : Ready (takeBatch s) .empty := hs
  have hx : exec .rxPri s = .next ((rxPriBody s).2.respond (rxPriBody s).1) := answers_rxPri hs
  refine ⟨_, answers_parse htaken rfl, fun hno => ?_, fun c hc => ?_⟩
  · rw [hx, rxPriBody_of_not_ok fun hok => hno _ (congrArg some ((parseBody_ok_iff _).1 hok))]
    rfl
  · have hok := parseBody_status_ok (Option.some.inj hc)
    refine ⟨_, _, exec_dispatch_respond htaken.parseBody _, exec_txnStop_respond htaken.parseBody.dispatchBody _, ?_⟩
    rw [hx, rxPriBody_of_ok hok]
    rfl

/-! ### The tick (R300) -/

/-- Settles O54: each body gives what its command answers on what the one before it left. -/
theorem loopRunsTheThreeBodiesInOrder : Obligations.LoopRunsTheThreeBodiesInOrder := by
  unfold Obligations.LoopRunsTheThreeBodiesInOrder
  intro s hs
  exact ⟨_, _, _, _, _, _, answers_rxPri hs, exec_rxExt_respond hs.rxPriBody _,
    exec_flush_respond hs.rxPriBody.rxExtBody _, rfl, rfl, rfl, command_empty .evLoop _ s hs⟩

end Sys2Proof.Machine
end

section
/-! PROOFS. The transition table (45_arbiter.md R315). A command that changes the transaction state found the engine
ready, so what it leaves is what the statement about it says. -/

namespace Sys2Proof.Machine

/-! ### The rows of the table -/

/-- The rows from IDLE to INTERNAL: a start, or a frame sent (R281, R304, R306, R309). -/
def OpensInternal (i : Instr) (s t : State) : Prop :=
  s.txnState = .idle ∧ t.txnState = .internal ∧ t.txnTmr = true ∧
    (i = .txnStartInt ∨
      i = .flush ∧ s.dirty = true ∧ t.priTx = s.priTx ++ t.view .v2 ∨
      i = .evUpdate ∧ s.pollDis = false ∧ t.priTx = s.priTx ++ t.view .v2 ∨
      i = .evSettle ∧ s.settleTmr = true ∧ s.proxyActive = false ∧ t.priTx = s.priTx ++ t.view .v2)

/-- The rows from IDLE to EXTERNAL: a start, or bytes that wait on EXT (R282, R303). -/
def OpensExternal (i : Instr) (s t : State) : Prop :=
  s.txnState = .idle ∧ t.txnState = .external ∧ t.txnTmr = true ∧ t.proxyActive = true ∧ t.pollDis = true ∧
    (i = .txnStartExt ∨ i = .rxExt ∧ s.extAttached = true ∧ s.extRx ≠ [])

/-- The rows to IDLE: an accepted frame, the stop, or the timeout (R283, R296, R302). -/
def Closes (i : Instr) (s t : State) : Prop :=
  s.txnState ≠ .idle ∧ t.txnState = .idle ∧ t.txnTmr = false ∧
    (i = .rxPri ∧ (∃ c, t.resp = some ⟨.ok, .cls c⟩) ∨
      i = .txnStop ∨
      i = .evTimeout ∧ s.txnTmr = true ∧ t.events = s.events ++ [.log .warning .wTxnTimeout])

/-! ### A change of the transaction state -/

section
variable {i : Instr} {s t u : State} {r : Response}

/-- What an instruction answers is the state it leaves. -/
theorem eq_respond_of_answers (ha : Answers i s r u) (h : exec i s = .next t) : t = u.respond r := by
  rw [(answers_iff i s u r).1 ha] at h
  exact (Host.Outcome.next.inj h).symm

/-- An instruction whose answer has the transaction state of before does not change it. -/
theorem txnState_of_answers (ha : Answers i s r u) (hu : u.txnState = s.txnState) (h : exec i s = .next t) :
    t.txnState = s.txnState := by
  rw [eq_respond_of_answers ha h]
  exact hu

/-- A command without an operand that changes the transaction state found the engine ready: a refused command and a
fault leave it. -/
theorem ready_of_txn_changed {body : Unit → Effect} (hx : exec i s = command i takesNothing body s)
    (h : exec i s = .next t) (hne : t.txnState ≠ s.txnState) : Ready s .empty := by
  obtain ⟨-, rfl⟩ | ⟨-, -, rfl⟩ | ⟨hf, d, hd, -⟩ := command_cases (hx.symm.trans h)
  · exact absurd rfl hne
  · exact absurd rfl hne
  · exact ⟨hf, takesNothing_some hd⟩

end

/-! ### The commands of the arbiter -/

section
variable {s t : State}

theorem txnStartInt_opens (h : exec .txnStartInt s = .next t) (hne : t.txnState ≠ s.txnState) :
    OpensInternal .txnStartInt s t := by
  have hs : Ready s .empty := ready_of_txn_changed rfl h hne
  obtain ⟨hopen, hrefused, -⟩ := transactionStartAndStop s hs
  by_cases hidle : s.txnState = .idle
  · obtain rfl := eq_respond_of_answers (hopen hidle).1 h
    exact ⟨hidle, rfl, rfl, .inl rfl⟩
  · exact absurd (txnState_of_answers (hrefused hidle).1 rfl h) hne

theorem txnStartExt_opens (h : exec .txnStartExt s = .next t) (hne : t.txnState ≠ s.txnState) :
    OpensExternal .txnStartExt s t := by
  have hs : Ready s .empty := ready_of_txn_changed rfl h hne
  obtain ⟨hopen, hrefused, -⟩ := transactionStartAndStop s hs
  by_cases hidle : s.txnState = .idle
  · obtain rfl := eq_respond_of_answers (hopen hidle).2 h
    exact ⟨hidle, rfl, rfl, rfl, rfl, .inl rfl⟩
  · exact absurd (txnState_of_answers (hrefused hidle).2 rfl h) hne

theorem txnStop_closes (h : exec .txnStop s = .next t) (hne : t.txnState ≠ s.txnState) : Closes .txnStop s t := by
  have hs : Ready s .empty := ready_of_txn_changed rfl h hne
  obtain ⟨-, -, hstop⟩ := transactionStartAndStop s hs
  obtain rfl := eq_respond_of_answers hstop h
  exact ⟨hne.symm, rfl, rfl, .inr (.inl rfl)⟩

theorem txnState_parseBody_takeBatch (s : State) : (parseBody (takeBatch s)).2.txnState = s.txnState :=
  congrArg Prod.fst (arbiterBits_parseBody (takeBatch s))

theorem rxPri_closes (h : exec .rxPri s = .next t) (hne : t.txnState ≠ s.txnState) : Closes .rxPri s t := by
  have hs : Ready s .empty := ready_of_txn_changed rfl h hne
  have hx := answers_rxPri hs
  by_cases hok : (parseBody (takeBatch s)).1.status = .ok
  · rw [rxPriBody_of_ok hok] at hx
    obtain rfl := eq_respond_of_answers hx h
    exact ⟨hne.symm, rfl, rfl, .inl ⟨rfl, _, congrArg some ((parseBody_ok_iff _).1 hok)⟩⟩
  · rw [rxPriBody_of_not_ok hok] at hx
    exact absurd (txnState_of_answers hx (txnState_parseBody_takeBatch s) h) hne

theorem rxExt_opens (h : exec .rxExt s = .next t) (hne : t.txnState ≠ s.txnState) : OpensExternal .rxExt s t := by
  have hs : Ready s .empty := ready_of_txn_changed rfl h hne
  have hx := answers_rxExt hs
  by_cases hnothing : s.extAttached = false ∨ s.extRx = []
  · rw [rxExtBody_of_nothing hnothing] at hx
    exact absurd (txnState_of_answers hx rfl h) hne
  · obtain ⟨ha, hrx⟩ := not_or.1 hnothing
    have ha : s.extAttached = true := by simpa using ha
    cases htxn : s.txnState with
    | idle =>
      rw [rxExtBody_of_idle ha hrx htxn] at hx
      obtain rfl := eq_respond_of_answers hx h
      exact ⟨htxn, rfl, rfl, rfl, rfl, .inr ⟨rfl, ha, hrx⟩⟩
    | external =>
      rw [rxExtBody_of_external ha hrx htxn] at hx
      exact absurd (txnState_of_answers hx rfl h) hne
    | internal =>
      rw [rxExtBody_of_internal ha hrx htxn] at hx
      exact absurd (txnState_of_answers hx (congrArg Prod.fst (arbiterBits_contendExt s)) h) hne

theorem flush_opens (h : exec .flush s = .next t) (hne : t.txnState ≠ s.txnState) : OpensInternal .flush s t := by
  have hs : Ready s .empty := ready_of_txn_changed rfl h hne
  obtain ⟨hclean, hbusy, -⟩ := flushSendsThePendingCommand s hs
  cases hd : s.dirty with
  | false => exact absurd (txnState_of_answers (hclean hd) rfl h) hne
  | true =>
    by_cases hidle : s.txnState = .idle
    · have hx := answers_flush hs
      rw [flushBody_of_idle hd hidle] at hx
      obtain rfl := eq_respond_of_answers hx h
      exact ⟨hidle, rfl, rfl, .inr (.inl ⟨rfl, hd, sendInternal_priTx s _ _ _⟩)⟩
    · exact absurd (txnState_of_answers (hbusy hd hidle) rfl h) hne

theorem evUpdate_opens (h : exec .evUpdate s = .next t) (hne : t.txnState ≠ s.txnState) :
    OpensInternal .evUpdate s t := by
  have hs : Ready s .empty := ready_of_txn_changed rfl h hne
  obtain ⟨hdisabled, hbusy, -⟩ := updateSendsOnePoll s hs
  cases hon : s.pollDis with
  | true => exact absurd (txnState_of_answers (hdisabled hon) rfl h) hne
  | false =>
    by_cases hidle : s.txnState = .idle
    · have hx := answers_evUpdate_idle hs hon hidle
      rw [sendPoll_eq] at hx
      obtain rfl := eq_respond_of_answers hx h
      exact ⟨hidle, rfl, rfl, .inr (.inr (.inl ⟨rfl, hon, sendInternal_priTx s _ _ _⟩))⟩
    · exact absurd (txnState_of_answers (hbusy hon hidle) rfl h) hne

theorem evTimeout_closes (h : exec .evTimeout s = .next t) (hne : t.txnState ≠ s.txnState) :
    Closes .evTimeout s t := by
  have hs : Ready s .empty := ready_of_txn_changed rfl h hne
  obtain ⟨harmed, hunarmed, -⟩ := timeoutAndUnarmedTimers s hs
  cases htmr : s.txnTmr with
  | false => exact absurd (txnState_of_answers (hunarmed htmr) rfl h) hne
  | true =>
    obtain rfl := eq_respond_of_answers (harmed htmr) h
    exact ⟨hne.symm, rfl, rfl, .inr (.inr ⟨rfl, htmr, rfl⟩)⟩

theorem evSettle_opens (h : exec .evSettle s = .next t) (hne : t.txnState ≠ s.txnState) :
    OpensInternal .evSettle s t := by
  have hs : Ready s .empty := ready_of_txn_changed rfl h hne
  obtain ⟨hunarmed, harmed, -⟩ := bootTimersHandshakeAndPolling s hs
  cases htmr : s.settleTmr with
  | false => exact absurd (txnState_of_answers (hunarmed htmr) rfl h) hne
  | true =>
    obtain ⟨hproxying, hbusy, hsent⟩ := harmed htmr
    cases hproxy : s.proxyActive with
    | true => exact absurd (txnState_of_answers (hproxying hproxy) rfl h) hne
    | false =>
      by_cases hidle : s.txnState = .idle
      · obtain ⟨b, -, hx⟩ := hsent hproxy hidle
        obtain rfl := eq_respond_of_answers hx h
        exact ⟨hidle, rfl, rfl, .inr (.inr (.inr ⟨rfl, htmr, hproxy, rfl⟩))⟩
      · exact absurd (txnState_of_answers (hbusy hproxy hidle) rfl h) hne

theorem evPstart_keeps_txnState (h : exec .evPstart s = .next t) : t.txnState = s.txnState :=
  command_keeps State.respond_txnState (State.enterFault_txnState s) h fun _ =>
    .ite (.done rfl) (.ite (.done rfl) (.done rfl))

end

/-- Settles O58: the commands of the arbiter one by one; no other instruction changes the transaction state. -/
theorem transactionStateChangesOnlyAsTheTable : Obligations.TransactionStateChangesOnlyAsTheTable := by
  unfold Obligations.TransactionStateChangesOnlyAsTheTable
  intro i s t h hne hloop hrx
  change OpensInternal i s t ∨ OpensExternal i s t ∨ Closes i s t
  by_cases hi : i ∈ arbiterCommands
  · simp only [arbiterCommands, List.mem_cons, List.not_mem_nil, or_false] at hi
    obtain rfl | rfl | rfl | rfl | rfl | rfl | rfl | rfl | rfl | rfl | rfl := hi
    · exact .inl (txnStartInt_opens h hne)
    · exact .inr (.inl (txnStartExt_opens h hne))
    · exact .inr (.inr (txnStop_closes h hne))
    · exact .inr (.inr (rxPri_closes h hne))
    · exact .inr (.inl (rxExt_opens h hne))
    · exact .inl (flush_opens h hne)
    · exact absurd rfl hloop
    · exact .inl (evUpdate_opens h hne)
    · exact .inr (.inr (evTimeout_closes h hne))
    · exact .inl (evSettle_opens h hne)
    · exact absurd (evPstart_keeps_txnState h) hne
  · obtain ⟨htxn, -⟩ := (State.arbiterBits_eq_iff s t).1 (exec_keeps_arbiterBits hi hrx h)
    exact absurd htxn hne

end Sys2Proof.Machine
end

section
/-! PROOFS. Proxy suppression holds until reset (45_arbiter.md R316): no instruction clears the proxy flag, and
EV_PSTART alone enables polling, only while not proxying. -/

namespace Sys2Proof.Machine

/-- The two bits of proxy suppression stay set where they are set (R316). -/
def SuppressionStays (s t : State) : Prop :=
  (s.proxyActive = true → t.proxyActive = true) ∧ (s.pollDis = true → t.pollDis = true)

section
variable {s t u : State}

/-- Both bits as before. -/
theorem SuppressionStays.of_eq (hproxy : t.proxyActive = s.proxyActive) (hpoll : t.pollDis = s.pollDis) :
    SuppressionStays s t := ⟨hproxy.trans, hpoll.trans⟩

theorem SuppressionStays.of_arbiterBits (h : t.arbiterBits = s.arbiterBits) : SuppressionStays s t := by
  obtain ⟨-, hproxy, hpoll⟩ := (State.arbiterBits_eq_iff s t).1 h
  exact .of_eq hproxy hpoll

theorem SuppressionStays.trans (h : SuppressionStays s t) (h' : SuppressionStays t u) : SuppressionStays s u :=
  ⟨h'.1 ∘ h.1, h'.2 ∘ h.2⟩

/-- A command leaves the bits set where its body does. -/
theorem SuppressionStays.command {α : Type} {i : Instr} {takes : Data → Option α} {body : α → Effect}
    (h : command i takes body s = .next t) (hb : ∀ d, (body d).Leaves (SuppressionStays s)) :
    SuppressionStays s t := by
  obtain ⟨-, rfl⟩ | ⟨-, -, rfl⟩ | ⟨-, d, -, ⟨r, u, hu, rfl⟩ | ⟨c, info, -, rfl⟩⟩ := command_cases h
  · exact .of_eq rfl rfl
  · exact .of_eq rfl rfl
  · have hleaves : (Effect.done r u).Leaves (SuppressionStays s) := hu ▸ hb d
    cases hleaves with
    | done hstays => exact hstays
  · exact .of_eq rfl rfl

/-- Freezing the polls sets both (R282). -/
theorem suppressionStays_of_set (hproxy : t.proxyActive = true) (hpoll : t.pollDis = true) : SuppressionStays s t :=
  ⟨fun _ => hproxy, fun _ => hpoll⟩

theorem suppressionStays_rxPriBody (s : State) : SuppressionStays s (rxPriBody s).2 := by
  rw [rxPriBody_frame]
  exact .of_eq rfl rfl

theorem suppressionStays_flushBody (s : State) : SuppressionStays s (flushBody s).2 := by
  rw [flushBody_frame]
  exact .of_eq rfl rfl

theorem suppressionStays_sendPoll (s : State) : SuppressionStays s (sendPoll s) := by
  rw [sendPoll_eq]
  exact .of_eq rfl rfl

theorem suppressionStays_rxExtBody (s : State) : SuppressionStays s (rxExtBody s).2 := by
  unfold rxExtBody
  split
  · exact .of_eq rfl rfl
  · split
    · exact suppressionStays_of_set rfl rfl
    · exact .of_eq rfl rfl
    · exact .of_arbiterBits (arbiterBits_contendExt s)

theorem suppressionStays_receiveBytes (F : List Byte) (s : State) : SuppressionStays s (receiveBytes F s) := by
  cases hf : s.faulted with
  | true =>
    rw [receiveBytes_of_faulted hf]
    exact .of_eq rfl rfl
  | false =>
    rw [receiveBytes_of_not_faulted hf]
    have harrive : SuppressionStays s (s.arrive .pri F) := .of_eq rfl rfl
    exact harrive.trans (suppressionStays_rxPriBody _)

/-- Every instruction but EV_PSTART leaves the bits set. -/
theorem exec_suppressionStays {i : Instr} (hi : i ≠ .evPstart) (h : exec i s = .next t) : SuppressionStays s t := by
  by_cases hrx : i.encoding = .rxHeader
  · obtain ⟨F, hF⟩ := exec_rxHeader hrx s
    obtain rfl : receiveBytes F s = t := by simpa [hF] using h
    exact suppressionStays_receiveBytes F s
  by_cases harb : i ∈ arbiterCommands
  · simp only [arbiterCommands, List.mem_cons, List.not_mem_nil, or_false] at harb
    obtain rfl | rfl | rfl | rfl | rfl | rfl | rfl | rfl | rfl | rfl | rfl := harb
    · exact .command h fun _ => .ite (fun _ => .done (.of_eq rfl rfl)) fun _ => .done (.of_eq rfl rfl)
    · exact .command h fun _ => .ite (fun _ => .done (suppressionStays_of_set rfl rfl)) fun _ => .done (.of_eq rfl rfl)
    · exact .command h fun _ => .done (.of_eq rfl rfl)
    · exact .command h fun _ => .done (suppressionStays_rxPriBody s)
    · exact .command h fun _ => .done (suppressionStays_rxExtBody s)
    · exact .command h fun _ => .done (suppressionStays_flushBody s)
    · exact .command h fun _ => .done
        (((suppressionStays_rxPriBody s).trans (suppressionStays_rxExtBody _)).trans (suppressionStays_flushBody _))
    · exact .command h fun _ => .ite (fun _ => .done (.of_eq rfl rfl)) fun _ =>
        .ite (fun _ => .done (.of_eq rfl rfl)) fun _ => .done (suppressionStays_sendPoll s)
    · exact .command h fun _ => .ite (fun _ => .done (.of_eq rfl rfl)) fun _ => .done (.of_eq rfl rfl)
    · exact .command h fun _ => .ite (fun _ => .done (.of_eq rfl rfl)) fun _ => .ite (fun _ => .done (.of_eq rfl rfl))
        fun _ => .ite (fun _ => .done (.of_eq rfl rfl)) fun _ => .done (.of_eq rfl rfl)
    · exact absurd rfl hi
  · exact .of_arbiterBits (exec_keeps_arbiterBits harb hrx h)

/-- While proxying, EV_PSTART leaves the bits set too (R310). -/
theorem evPstart_suppressionStays (hproxy : s.proxyActive = true) (h : exec .evPstart s = .next t) :
    SuppressionStays s t :=
  .command h fun _ => .ite (fun _ => .done (.of_eq rfl rfl)) fun _ =>
    .ite (fun _ => .done (.of_eq rfl rfl)) fun hno => absurd hproxy hno

/-- While proxying, every instruction leaves the bits set. -/
theorem exec_suppressionStays_of_proxy {i : Instr} (hproxy : s.proxyActive = true) (h : exec i s = .next t) :
    SuppressionStays s t := by
  by_cases hi : i = .evPstart
  · subst hi
    exact evPstart_suppressionStays hproxy h
  · exact exec_suppressionStays hi h

/-- EV_PSTART alone enables polling, and only while not proxying. -/
theorem eq_evPstart_of_polling_enabled {i : Instr} (h : exec i s = .next t) (hdis : s.pollDis = true)
    (hon : t.pollDis = false) : i = .evPstart ∧ s.proxyActive = false := by
  have hcleared : ¬ SuppressionStays s t := fun hstays => by simp [hstays.2 hdis] at hon
  exact ⟨by_contra fun hi => hcleared (exec_suppressionStays hi h),
    Bool.eq_false_iff.2 fun hproxy => hcleared (exec_suppressionStays_of_proxy hproxy h)⟩

theorem suppressionStays_illegalCommand (w : Word) (s : State) : SuppressionStays s (illegalCommand w s) := by
  unfold illegalCommand
  split <;> exact .of_eq rfl rfl

/-- Taking an input other than a reset leaves the bits set. -/
theorem fetch_suppressionStays {x : Input} (hx : ∀ c, x ≠ .reset c) (s : State) :
    SuppressionStays s (fetch x s).state := by
  cases x with
  | command w d =>
    cases hd : decodeCommand w with
    | ok i =>
      rw [fetch_command_ok hd]
      exact .of_eq rfl rfl
    | error e =>
      rw [fetch_command_error hd]
      exact suppressionStays_illegalCommand w { s with data := d }
  | txFrame w =>
    cases hd : decodeTxHeader w with
    | ok i =>
      rw [fetch_txFrame_ok hd]
      exact .of_eq rfl rfl
    | error e =>
      rw [fetch_txFrame_error hd]
      exact .of_eq rfl rfl
  | rxFrame w B =>
    cases hd : decodeRxHeader w with
    | ok i =>
      rw [fetch_rxFrame_ok hd]
      exact .of_eq rfl rfl
    | error e =>
      rw [fetch_rxFrame_error hd]
      exact suppressionStays_receiveBytes _ s
  | arrive p B => cases p <;> exact .of_eq rfl rfl
  | reset c => exact absurd rfl (hx c)

/-- While proxying, a step that takes no reset leaves the bits set. -/
theorem step_suppressionStays (hproxy : s.proxyActive = true) (hin : ∀ c rest, s.inputs ≠ .reset c :: rest)
    (h : step s = .next t) : SuppressionStays s t := by
  cases hq : s.inputs with
  | nil =>
    obtain rfl : s = t := by simpa [step, hq] using h
    exact .of_eq rfl rfl
  | cons x rest =>
    have hfetch : SuppressionStays s (fetch x { s with inputs := rest }).state :=
      fetch_suppressionStays (fun c hc => hin c rest (hc ▸ hq)) { s with inputs := rest }
    cases hf : fetch x { s with inputs := rest } with
    | run i u =>
      rw [hf] at hfetch
      rw [step_of_fetch_run hq hf] at h
      exact hfetch.trans (exec_suppressionStays_of_proxy (hfetch.1 hproxy) h)
    | settled u =>
      rw [hf] at hfetch
      obtain rfl : u = t := by simpa [step_of_fetch_settled hq hf] using h
      exact hfetch

end

/-- Settles O59: by what one instruction, and one step, leaves of the two bits. -/
theorem proxySuppressionHoldsUntilReset : Obligations.ProxySuppressionHoldsUntilReset := by
  unfold Obligations.ProxySuppressionHoldsUntilReset
  refine ⟨fun i s t h => ⟨fun hproxy => (exec_suppressionStays_of_proxy hproxy h).1 hproxy,
    eq_evPstart_of_polling_enabled h⟩, fun s hproxy hdis => ⟨fun t hin h => ?_,
    fun hs => answers_evUpdate_disabled hs hdis, fun hs hd hidle => ?_⟩⟩
  · have hstays := step_suppressionStays hproxy hin h
    exact ⟨hstays.1 hproxy, hstays.2 hdis⟩
  · have hx := answers_flush hs
    rw [flushBody_of_idle hd hidle] at hx
    exact ⟨_, hx, sendInternal_priTx s _ _ _⟩

end Sys2Proof.Machine
end

section
/-! PROOFS. DISPATCH (45_arbiter.md R297, R298): each round of its loop reads and writes the cell of its own slot alone,
so the rounds from a state are the rounds that all see the first state, in any order. -/

namespace Sys2Proof.Machine

/-! ### The slots a frame feeds (R297) -/

section
variable {s : State} {c : FrameClass} {n : Nat} {d : Slot}

theorem readableSlot_eq_some_iff :
    readableSlot s c n = some d ↔ s.cfg.slots[n]? = some d ∧ catIs c d.cat = true ∧ d.mode ≠ .w := by
  simp [readableSlot, Option.filter_eq_some_iff]

theorem visited_iff : Visited s c n ↔ ∃ d, readableSlot s c n = some d := by
  simp only [Visited, readableSlot_eq_some_iff]

/-- The slots DISPATCH goes through are those R297 names. -/
theorem mem_slotsOf_iff : n ∈ slotsOf s c ↔ Visited s c n := by
  rw [slotsOf, List.mem_filter, List.mem_range, visited_iff, Option.isSome_iff_exists, and_iff_right_iff_imp]
  rintro ⟨d, hd⟩
  exact (List.getElem?_eq_some_iff.1 (readableSlot_eq_some_iff.1 hd).1).1

theorem slotsOf_nodup (s : State) (c : FrameClass) : (slotsOf s c).Nodup := List.nodup_range.filter _

theorem cellAfter_of_readable (h : readableSlot s c n = some d) (cells : List (Option Value)) :
    cellAfter s c cells n = cells.set n (notifyCell s n d) := by
  simp only [cellAfter, h]

theorem eventsOf_of_readable (h : readableSlot s c n = some d) : eventsOf s c n = notifyEvents s n d := by
  simp only [eventsOf, h]

/-- Notifying a slot leaves the cells of the others. -/
theorem cellAfter_getD_of_ne (s : State) (c : FrameClass) (cells : List (Option Value)) {m : Nat} (h : n ≠ m) :
    (cellAfter s c cells n).getD m none = cells.getD m none := by
  unfold cellAfter
  split
  · rfl
  · rw [List.getD_eq_getElem?_getD, List.getElem?_set_ne h, ← List.getD_eq_getElem?_getD]

/-- Two notifications commute, since each writes its own cell (R298). -/
theorem cellAfter_comm (s : State) (c : FrameClass) (cells : List (Option Value)) (n m : Nat) :
    cellAfter s c (cellAfter s c cells n) m = cellAfter s c (cellAfter s c cells m) n := by
  by_cases hnm : n = m
  · rw [hnm]
  · unfold cellAfter
    cases readableSlot s c n <;> cases readableSlot s c m
    · rfl
    · rfl
    · rfl
    · exact List.set_comm _ _ hnm

theorem foldl_cellAfter_perm (s : State) (c : FrameClass) (cells : List (Option Value)) {l l' : List Nat}
    (h : l.Perm l') : l.foldl (cellAfter s c) cells = l'.foldl (cellAfter s c) cells :=
  have : RightCommutative (cellAfter s c) := ⟨cellAfter_comm s c⟩
  h.foldl_eq cells

end

/-! ### The rounds of the loop -/

/-- The state with other cells and events: what the rounds change. -/
def State.withNotified (s : State) (cells : List (Option Value)) (es : List Event) : State :=
  { s with dedup := cells, events := es }

section
variable {s : State} {c : FrameClass} {n : Nat} {cells : List (Option Value)}

/-- A round decodes what it would decode in the first state, and compares it with its own cell (R226). -/
theorem notifySlot_withNotified (hcell : cells.getD n none = cellOf s n) (es : List Event) (d : Slot) :
    notifySlot (s.withNotified cells es) n d =
      s.withNotified (cells.set n (notifyCell s n d)) (es ++ notifyEvents s n d) := by
  have hseen : slotSeen (s.withNotified cells es) d = slotSeen s d := rfl
  have hcell : cellOf (s.withNotified cells es) n = cellOf s n := hcell
  have hnews : notifyNews (s.withNotified cells es) n d = notifyNews s n d := by
    rw [notifyNews, hseen, hcell, notifyNews]
  rw [notifySlot, notifyCell, notifyEvents, hnews, hseen, hcell, ← notifyCell, ← notifyEvents]
  rfl

theorem notifyRound_withNotified (hv : Visited s c n) (hcell : cells.getD n none = cellOf s n) (es : List Event) :
    notifyRound (s.withNotified cells es) n =
      s.withNotified (cellAfter s c cells n) (es ++ eventsOf s c n) := by
  obtain ⟨d, hd⟩ := visited_iff.1 hv
  have hslot : (s.withNotified cells es).cfg.slots[n]? = some d := (readableSlot_eq_some_iff.1 hd).1
  rw [cellAfter_of_readable hd, eventsOf_of_readable hd, ← notifySlot_withNotified hcell]
  simp only [notifyRound, hslot]

/-- The rounds of slots whose cells are still those of the first state. -/
theorem foldl_notifyRound_withNotified {l : List Nat} (hnodup : l.Nodup) (hv : ∀ n ∈ l, Visited s c n)
    (hcells : ∀ n ∈ l, cells.getD n none = cellOf s n) (es : List Event) :
    l.foldl notifyRound (s.withNotified cells es) =
      s.withNotified (l.foldl (cellAfter s c) cells) (es ++ l.flatMap (eventsOf s c)) := by
  induction l generalizing cells es with
  | nil => simp
  | cons n l ih =>
    obtain ⟨hn, hnodup⟩ := List.nodup_cons.1 hnodup
    obtain ⟨hvn, hv⟩ := List.forall_mem_cons.1 hv
    obtain ⟨hcell, hcells⟩ := List.forall_mem_cons.1 hcells
    have hrest : ∀ m ∈ l, (cellAfter s c cells n).getD m none = cellOf s m := fun m hm => by
      rw [cellAfter_getD_of_ne s c cells (ne_of_mem_of_not_mem hm hn).symm, hcells m hm]
    rw [List.foldl_cons, notifyRound_withNotified hvn hcell, ih hnodup hv hrest, List.foldl_cons, List.flatMap_cons,
      List.append_assoc]

/-- The loop of R297 over distinct slots. -/
theorem foldl_notifyRound {l : List Nat} (hnodup : l.Nodup) (hv : ∀ n ∈ l, Visited s c n) :
    l.foldl notifyRound s =
      s.withNotified (l.foldl (cellAfter s c) s.dedup) (s.events ++ l.flatMap (eventsOf s c)) :=
  foldl_notifyRound_withNotified (cells := s.dedup) hnodup hv (fun _ _ => rfl) s.events

end

/-! ### The order (R298) -/

/-- The order of this dispatch: the free rank's (log 10). -/
def dispatchOrder (s : State) : List Nat := arrange (Config.notifyRank s.dispatchCount) (slotsOf s s.fbCat)

theorem dispatchOrder_perm (s : State) : (dispatchOrder s).Perm (slotsOf s s.fbCat) := arrange_perm _ _

theorem mem_dispatchOrder_iff {s : State} {n : Nat} : n ∈ dispatchOrder s ↔ Visited s s.fbCat n :=
  (dispatchOrder_perm s).mem_iff.trans mem_slotsOf_iff

theorem dispatchOrder_nodup (s : State) : (dispatchOrder s).Nodup :=
  (dispatchOrder_perm s).nodup_iff.2 (slotsOf_nodup s s.fbCat)

/-- The cells of `notifyAll`, which goes through the slots in rising order, are those of the dispatch's order. -/
theorem notifyAll_eq_foldl (s : State) :
    notifyAll s s.fbCat =
      { (dispatchOrder s).foldl notifyRound s with dispatchCount := s.dispatchCount + 1 } := by
  rw [foldl_notifyRound (dispatchOrder_nodup s) fun _ => mem_dispatchOrder_iff.1,
    foldl_cellAfter_perm s s.fbCat s.dedup (dispatchOrder_perm s)]
  rfl

/-- Settles O49: the order of the rank is one order of the visited slots, and another order gives the same cells and a
permutation of the events. -/
theorem dispatchNotifiesInSomeOrder : Obligations.DispatchNotifiesInSomeOrder := by
  unfold Obligations.DispatchNotifiesInSomeOrder
  intro s hs
  have hx := answers_dispatch hs
  refine ⟨fun hstd hextra => ?_, fun hc => ?_⟩
  · rwa [dispatchBody_of_no_slots (not_or.2 ⟨hstd, hextra⟩)] at hx
  · rw [dispatchBody_of_slots hc, notifyAll_eq_foldl] at hx
    refine ⟨_, dispatchOrder s, hx, dispatchOrder_nodup s, fun n => mem_dispatchOrder_iff, rfl, fun other hperm => ?_⟩
    have hother := foldl_notifyRound (hperm.nodup_iff.2 (dispatchOrder_nodup s))
      fun n hn => mem_dispatchOrder_iff.1 (hperm.mem_iff.1 hn)
    rw [hother, foldl_notifyRound (dispatchOrder_nodup s) fun _ => mem_dispatchOrder_iff.1,
      foldl_cellAfter_perm s s.fbCat s.dedup hperm]
    exact ⟨rfl, (hperm.flatMap_right _).append_left _⟩

/-! ### A second dispatch (R297) -/

section
variable {s : State} {c : FrameClass} {n : Nat} {d : Slot} {x : Value}

/-- The cell of a slot with a value is that value, whether it is new or not (R226). -/
theorem notifyCell_of_some (hx : (slotSeen s d).value = some x) : notifyCell s n d = some x := by
  cases hnews : notifyNews s n d with
  | true => rw [notifyCell, hnews, if_pos rfl, hx]
  | false =>
    rw [notifyNews_of_some hx] at hnews
    rw [notifyCell, notifyNews_of_some hx, hnews]
    simpa using hnews

/-- Where the cell is what a notification left for the same bytes, nothing is news. -/
theorem notifyNews_of_notified {t : State} (hseen : slotSeen t d = slotSeen s d)
    (hcell : cellOf t n = notifyCell s n d) : notifyNews t n d = false := by
  cases hx : (slotSeen s d).value with
  | none => exact notifyNews_of_none (by rw [hseen, hx])
  | some x => rw [notifyNews_of_some (by rw [hseen, hx]), hcell, notifyCell_of_some hx, bne_self_eq_false]

/-- After the loop the cell of each slot it went through is its own notification's. -/
theorem foldl_cellAfter_getD {l : List Nat} {cells : List (Option Value)} (hd : readableSlot s c n = some d)
    (hn : n < cells.length) (hmem : n ∈ l) :
    (l.foldl (cellAfter s c) cells).getD n none = notifyCell s n d := by
  induction l using List.reverseRecOn with
  | nil => cases hmem
  | append_singleton l m ih =>
    rw [List.foldl_append, List.foldl_cons, List.foldl_nil]
    by_cases hmn : m = n
    · rw [hmn, cellAfter_of_readable hd, List.getD_eq_getElem?_getD,
        List.getElem?_set_self (by rwa [foldl_cellAfter_length]), Option.getD_some]
    · rw [cellAfter_getD_of_ne s c _ hmn]
      exact ih (by simpa [Ne.symm hmn] using hmem)

/-- A decode emits warnings and publishes nothing (R222). -/
theorem publish_not_mem_logs (m : NumModel) (d : Slot) (V : List Byte) (n : Nat) (x : Value) :
    Event.publish n x ∉ (slotDecode m d V).logs := by
  unfold slotDecode
  split
  · unfold decTri
    split_ifs <;> simp [Decoded.absent, Decoded.some, logEvent]
  · unfold decScaled
    split_ifs <;> simp [Decoded.absent, Decoded.some]
  · unfold decIndex
    split_ifs
    · simp [Decoded.absent]
    · split
      · simp [Decoded.absent]
      · split <;> simp [Decoded.some, logEvent]
  · unfold decKeyed
    split_ifs
    · simp [Decoded.absent]
    · split <;> simp [Decoded.some]
  · unfold decCustom
    split <;> simp [Decoded.absent]

/-- Without news a notification leaves the cells (R226). -/
theorem cellAfter_of_no_news (hcells : cellsSound s) (hd : readableSlot s c n = some d)
    (hnews : notifyNews s n d = false) : cellAfter s c s.dedup n = s.dedup := by
  have hslot := (readableSlot_eq_some_iff.1 hd).1
  have hn : n < s.dedup.length := by
    rw [hcells]
    exact (List.getElem?_eq_some_iff.1 hslot).1
  rw [cellAfter_of_readable hd]
  exact congrArg State.dedup (notifySlot_of_no_news hn hnews)

/-- Without news a notification emits the decode's logs alone (R226). -/
theorem notifyEvents_of_no_news (hnews : notifyNews s n d = false) : notifyEvents s n d = (slotSeen s d).logs := by
  rw [notifyEvents, hnews]
  cases (slotSeen s d).value <;> exact List.append_nil _

/-- No slot of the class has news. -/
def NoNews (s : State) (c : FrameClass) : Prop := ∀ n d, readableSlot s c n = some d → notifyNews s n d = false

/-- A notification of all slots leaves one cell per slot. -/
theorem cellsSound_notifyAll (hcells : cellsSound s) (c : FrameClass) : cellsSound (notifyAll s c) :=
  (foldl_cellAfter_length s c _ _).trans hcells

/-- After all slots of a class are notified, none of them has news. -/
theorem noNews_notifyAll (hcells : cellsSound s) (c : FrameClass) : NoNews (notifyAll s c) c := by
  intro n d hd
  have hd : readableSlot s c n = some d := hd
  have hn : n < s.dedup.length := by
    rw [hcells]
    exact (List.getElem?_eq_some_iff.1 (readableSlot_eq_some_iff.1 hd).1).1
  have hmem : n ∈ slotsOf s c := mem_slotsOf_iff.2 (visited_iff.2 ⟨d, hd⟩)
  exact notifyNews_of_notified (s := s) rfl (foldl_cellAfter_getD hd hn hmem)

theorem cellAfter_of_noNews (hcells : cellsSound s) (h : NoNews s c) (n : Nat) :
    cellAfter s c s.dedup n = s.dedup := by
  cases hd : readableSlot s c n with
  | none => simp only [cellAfter, hd]
  | some d => exact cellAfter_of_no_news hcells hd (h n d hd)

theorem publish_not_mem_eventsOf (h : NoNews s c) (n m : Nat) (x : Value) : Event.publish m x ∉ eventsOf s c n := by
  cases hd : readableSlot s c n with
  | none => simp [eventsOf, hd]
  | some d =>
    rw [eventsOf_of_readable hd, notifyEvents_of_no_news (h n d hd)]
    exact publish_not_mem_logs _ _ _ _ _

/-- Notifying slots without news leaves the cells and publishes nothing. -/
theorem notifyAll_of_noNews (hcells : cellsSound s) (h : NoNews s c) :
    (notifyAll s c).dedup = s.dedup ∧
      ∃ es, (notifyAll s c).events = s.events ++ es ∧ ∀ n x, Event.publish n x ∉ es := by
  refine ⟨List.foldl_fixed' (cellAfter_of_noNews hcells h) _, _, rfl, fun m x hmem => ?_⟩
  obtain ⟨n, -, hn⟩ := List.mem_flatMap.1 hmem
  exact publish_not_mem_eventsOf h n m x hn

end

/-- A second DISPATCH, on what the first one left, finds no news. -/
theorem dispatchBody_dispatchBody {s : State} (hcells : cellsSound s) :
    (dispatchBody (dispatchBody s).2).2.dedup = (dispatchBody s).2.dedup ∧
      ∃ es, (dispatchBody (dispatchBody s).2).2.events = (dispatchBody s).2.events ++ es ∧
        ∀ n x, Event.publish n x ∉ es := by
  by_cases hc : s.fbCat = .std ∨ s.fbCat = .extra
  · rw [dispatchBody_of_slots hc, dispatchBody_of_slots (s := { notifyAll s s.fbCat with extraSup := _ }) hc]
    exact notifyAll_of_noNews (s := { notifyAll s s.fbCat with extraSup := _ }) (cellsSound_notifyAll hcells s.fbCat)
      (noNews_notifyAll hcells s.fbCat)
  · rw [dispatchBody_of_no_slots hc, dispatchBody_of_no_slots hc]
    exact ⟨rfl, [], (List.append_nil _).symm, fun _ _ => List.not_mem_nil⟩

/-- Settles O50: what each DISPATCH leaves is its body's, and the second body finds no news. -/
theorem secondDispatchPublishesNothing : Obligations.SecondDispatchPublishesNothing := by
  unfold Obligations.SecondDispatchPublishesNothing
  intro s t u hs hcells ht hu
  obtain rfl := eq_respond_of_answers (answers_dispatch hs) ht
  rw [exec_dispatch_respond hs.dispatchBody] at hu
  obtain rfl := Host.Outcome.next.inj hu
  exact dispatchBody_dispatchBody hcells

end Sys2Proof.Machine
end

section
/-! PROOFS. The numbered checks of a configuration (60_exceptions.md R356): the number that `Config.firstFailing` gives
is followed along its checks, each of which passes its own number on to those after it. -/

namespace Sys2Proof.Machine

section
variable {c : Config} {m k : Nat} {o : Option Nat}

/-! ### The number of the first failing check -/

/-- Of the checks numbered `m` and above, `o` is the first that fails. -/
def TellsFirstFrom (c : Config) (m : Nat) : Option Nat → Prop
  | none => ∀ n, m ≤ n → CheckHolds c n
  | some k => m ≤ k ∧ ¬ CheckHolds c k ∧ ∀ n, m ≤ n → n < k → CheckHolds c n

/-- Checks that hold stand before the first failing one. -/
theorem TellsFirstFrom.skip (h : TellsFirstFrom c k o) (hmk : m ≤ k)
    (hskip : ∀ n, m ≤ n → n < k → CheckHolds c n) : TellsFirstFrom c m o := by
  have hbelow : ∀ n, m ≤ n → (k ≤ n → CheckHolds c n) → CheckHolds c n := fun n hm hk =>
    (Nat.lt_or_ge n k).elim (hskip n hm) hk
  cases o with
  | none => exact fun n hm => hbelow n hm (h n)
  | some j =>
    obtain ⟨hkj, hfails, hholds⟩ := h
    exact ⟨hmk.trans hkj, hfails, fun n hm hnj => hbelow n hm fun hkn => hholds n hkn hnj⟩

/-- The form of a check: it gives its own number, or those after it are asked. -/
theorem TellsFirstFrom.check {p : Prop} [Decidable p] (hp : p ↔ CheckHolds c m)
    (h : TellsFirstFrom c (m + 1) o) : TellsFirstFrom c m (if ¬ p then some m else o) := by
  by_cases hpass : p
  · rw [if_neg (not_not.2 hpass)]
    refine h.skip (Nat.le_succ m) fun n hm hn => ?_
    obtain rfl : n = m := by omega
    exact hp.1 hpass
  · rw [if_pos hpass]
    exact ⟨le_rfl, fun hholds => hpass (hp.2 hholds), fun n hm hn => absurd hn (Nat.not_lt.2 hm)⟩

/-- The first failing check has one number. -/
theorem TellsFirstFrom.eq_some_iff (h : TellsFirstFrom c 0 o) (k : Nat) :
    o = some k ↔ ¬ CheckHolds c k ∧ ∀ n < k, CheckHolds c n := by
  cases o with
  | none => exact ⟨nofun, fun hk => absurd (h k (Nat.zero_le k)) hk.1⟩
  | some j =>
    obtain ⟨-, hfails, hholds⟩ := h
    constructor
    · rintro ⟨⟩
      exact ⟨hfails, fun n => hholds n (Nat.zero_le n)⟩
    · rintro ⟨hkfails, hkholds⟩
      have hjk : ¬ j < k := fun hlt => hfails (hkholds j hlt)
      have hkj : ¬ k < j := fun hlt => hkfails (hholds k (Nat.zero_le k) hlt)
      exact congrArg some (by omega)

theorem TellsFirstFrom.eq_none_iff (h : TellsFirstFrom c 0 o) : o = none ↔ ∀ n, CheckHolds c n := by
  cases o with
  | none => exact ⟨fun _ n => h n (Nat.zero_le n), fun _ => rfl⟩
  | some k => exact ⟨nofun, fun hall => absurd (hall k) h.2.1⟩

end

/-! ### The checks by their numbers -/

section
variable (c : Config)

/-- A number that R356 gives to no check holds. -/
theorem checkHolds_zero : CheckHolds c 0 := fun h => absurd h (by decide)

theorem checkHolds_iff_of_ge : ∀ {n : Nat}, 8 ≤ n →
    (CheckHolds c n ↔ (100 ≤ n → ∀ d, c.slots[n - 100]? = some d → SlotCheckHolds c d))
  | _ + 8, _ => Iff.rfl

/-- The numbers between the last check of the whole configuration and the first slot's. -/
theorem checkHolds_of_lt {n : Nat} (h8 : 8 ≤ n) (h : n < 100) : CheckHolds c n :=
  (checkHolds_iff_of_ge c h8).2 fun hge => absurd h (Nat.not_lt.2 hge)

theorem checkHolds_slot_iff (n : Nat) :
    CheckHolds c (100 + n) ↔ ∀ d, c.slots[n]? = some d → Slot.ok c d = true := by
  rw [checkHolds_iff_of_ge c (by omega), Nat.add_sub_cancel_left]
  simp only [slotOk_iff, Nat.le_add_right, forall_const]

/-- Check 4, of the three length fields. -/
theorem lengthFields_iff :
    (lengthFieldOk c c.initLenField ∧ lengthFieldOk c c.pollLenField ∧ lengthFieldOk c c.cmdLenField ∧
      3 ≤ c.cmdLenField.toNat) ↔ CheckHolds c 4 := by
  simp only [lengthFieldOk, decide_eq_true_eq]
  exact Iff.rfl

/-- Check 6, of the preambles and the categories. -/
theorem preamblesAndCategories_iff :
    (c.prePoll ∈ c.rxPreambles ∧ c.preCmd ∈ c.rxPreambles ∧ c.preInit ∈ c.rxPreambles ∧
      c.catInit ≠ c.catStd ∧ c.catInit ≠ c.catExtra ∧ c.catStd ≠ c.catExtra) ↔ CheckHolds c 6 := by
  simp [CheckHolds, and_assoc]

theorem firstBadSlot_eq_none_iff (s : Nat) (l : List Slot) :
    firstBadSlot c s l = none ↔ ∀ d ∈ l, Slot.ok c d = true := by
  induction l generalizing s with
  | nil => simp [firstBadSlot]
  | cons d ds ih =>
    rw [firstBadSlot]
    split
    · next h => simp [ih, h]
    · next h => simp [h]

/-- The slots' checks, `100 + s` for slot `s`. -/
theorem tellsFirstFrom_slots : TellsFirstFrom c 100 ((firstBadSlot c 0 c.slots).map (100 + ·)) := by
  have hslot : ∀ n, 100 ≤ n → (∀ d, c.slots[n - 100]? = some d → Slot.ok c d = true) → CheckHolds c n :=
    fun n hn h => by
      obtain ⟨j, rfl⟩ := Nat.exists_eq_add_of_le hn
      exact (checkHolds_slot_iff c j).2 (by rwa [Nat.add_sub_cancel_left] at h)
  cases hbad : firstBadSlot c 0 c.slots with
  | none =>
    have hall := (firstBadSlot_eq_none_iff c 0 c.slots).1 hbad
    exact fun n hn => hslot n hn fun d hd => hall d (List.mem_of_getElem? hd)
  | some k =>
    obtain ⟨-, ⟨d, hd, hfails⟩, hbelow⟩ := (firstBadSlot_eq_some_iff c c.slots 0 k).1 hbad
    refine ⟨Nat.le_add_right _ _, fun hholds => ?_, fun n hn hnk => hslot n hn (hbelow _ ?_)⟩
    · have hok := (checkHolds_slot_iff c k).1 hholds d hd
      exact absurd hok (by simp [hfails])
    · exact Nat.sub_lt_left_of_lt_add hn hnk

/-- `Config.firstFailing` tells the first failing check. -/
theorem tellsFirstFrom_firstFailing : TellsFirstFrom c 0 c.firstFailing := by
  have hslots : TellsFirstFrom c 8 ((firstBadSlot c 0 c.slots).map (100 + ·)) :=
    (tellsFirstFrom_slots c).skip (by decide) fun _ => checkHolds_of_lt c
  have hchecks : TellsFirstFrom c 1 c.firstFailing :=
    .check Iff.rfl (.check Iff.rfl (.check Iff.rfl (.check (lengthFields_iff c) (.check Iff.rfl
      (.check (preamblesAndCategories_iff c) (.check Iff.rfl hslots))))))
  refine hchecks.skip (Nat.zero_le 1) fun n _ hn => ?_
  obtain rfl : n = 0 := by omega
  exact checkHolds_zero c

end

/-- Settles O9: the number that the configuration's checks give is that of the first one of R356 that fails. -/
theorem wellFormedConfigurationChecks : Obligations.WellFormedConfigurationChecks := by
  unfold Obligations.WellFormedConfigurationChecks
  intro c
  have hfirst := tellsFirstFrom_firstFailing c
  exact ⟨c.wf_iff.trans hfirst.eq_none_iff, hfirst.eq_some_iff⟩

end Sys2Proof.Machine
end

section
/-! PROOFS. Precise faults (60_exceptions.md R343, R346): a body that ends in a response does not write `FAULTED`,
so a command that newly faults has made fault entry, from the state before it. -/

namespace Sys2Proof.Machine

/-- `t` has `FAULTED` as `s` has it, or is `s` after fault entry and no more (R346). -/
def FaultsPrecisely (s t : State) : Prop := t.faulted = s.faulted ∨ ∃ c info, t = s.enterFault c info

section
variable {s t : State}

/-- A command faults precisely where its body, when it ends in a response, does not fault. -/
theorem FaultsPrecisely.command {α : Type} {i : Instr} {takes : Data → Option α} {body : α → Effect}
    (h : command i takes body s = .next t) (hb : ∀ d, (body d).Keeps State.faulted s) : FaultsPrecisely s t := by
  obtain ⟨-, rfl⟩ | ⟨-, -, rfl⟩ | ⟨-, d, -, ⟨r, u, hu, rfl⟩ | ⟨c, info, -, rfl⟩⟩ := command_cases h
  · exact .inl rfl
  · exact .inr ⟨_, _, rfl⟩
  · have hkeeps : (Effect.done r u).Keeps State.faulted s := hu ▸ hb d
    cases hkeeps with
    | done hu => exact .inl hu
  · exact .inr ⟨c, info, rfl⟩

/-! ### What the bodies leave of `FAULTED` -/

theorem faulted_parseBody (s : State) : (parseBody s).2.faulted = s.faulted :=
  (congrArg State.faulted (parseBody_frame s)).trans rfl

theorem faulted_dispatchBody (s : State) : (dispatchBody s).2.faulted = s.faulted :=
  (congrArg State.faulted (dispatchBody_frame s)).trans rfl

theorem faulted_rxPriBody (s : State) : (rxPriBody s).2.faulted = s.faulted :=
  (congrArg State.faulted (rxPriBody_frame s)).trans rfl

theorem faulted_rxExtBody (s : State) : (rxExtBody s).2.faulted = s.faulted :=
  (congrArg State.faulted (rxExtBody_frame s)).trans rfl

theorem faulted_flushBody (s : State) : (flushBody s).2.faulted = s.faulted :=
  (congrArg State.faulted (flushBody_frame s)).trans rfl

theorem faulted_loopBody (s : State) : (loopBody s).2.faulted = s.faulted :=
  (faulted_flushBody _).trans ((faulted_rxExtBody _).trans (faulted_rxPriBody s))

theorem faulted_receiveBytes (F : List Byte) (s : State) : (receiveBytes F s).faulted = s.faulted := by
  cases hf : s.faulted with
  | true => rw [receiveBytes_of_faulted hf]; exact hf
  | false => rw [receiveBytes_of_not_faulted hf]; exact (faulted_rxPriBody _).trans hf

theorem encodeEffect_keeps_faulted (v : View) (slot : BitVec 8) (s : State) (e : Encoded) :
    (encodeEffect v slot s e).Keeps State.faulted s := by
  cases e with
  | written V => exact .done (s.store_faulted v 0 V)
  | noEffect logs => exact .done rfl
  | fails c => exact .raise

theorem slotWriteEffect_keeps_faulted (slot : BitVec 8) (s : State) (e : Encoded) :
    (slotWriteEffect slot s e).Keeps State.faulted s := by
  cases e with
  | written V => exact .done rfl
  | noEffect logs => exact .done rfl
  | fails c => exact .raise

/-- A frame HPFE builds raises no fault. -/
theorem FaultsPrecisely.transmitFrame {body : State → State} (hb : (body s).faulted = s.faulted)
    (h : transmitFrame body s = .next t) : FaultsPrecisely s t := by
  unfold Machine.transmitFrame at h
  split at h <;> cases h
  · exact .inl rfl
  · exact .inl hb

/-! ### Every instruction -/

/-- EVERY INSTRUCTION FAULTS PRECISELY. Each body is followed through its checks to the states it leaves. -/
theorem exec_faultsPrecisely {i : Instr} (h : exec i s = .next t) : FaultsPrecisely s t := by
  cases i with
  | nop | rbSize | rbDiscardUntil | ckChk | serInit | serStd | serExt | serCmd | txnStop =>
    exact .command h fun _ => .done rfl
  | rbPush | ckGen => exact .command h fun _ => .ite .raise (.done rfl)
  | rbPeek | rbPop =>
    refine .command h fun _ => ?_
    split
    · exact .raise
    · exact .done rfl
  | rdBits | rdBytes | rdArray => exact .command h fun _ => .ite .raise (.ite .raise (.done rfl))
  | wrBits v | wrBytes v =>
    exact .command h fun _ =>
      .whenWritable (.ite .raise (.ite .raise (.ite .raise (.done (s.store_faulted v _ _)))))
  | wrArray v =>
    exact .command h fun _ => .whenWritable (.ite .raise (.ite .raise (.done (s.store_faulted v _ _))))
  | decTri | decScaled | decIndex | decKeyed | decCustom =>
    exact .command h fun _ => .withSlot fun _ => .whenKind (.done rfl)
  | encTri v slot | encScaled v slot | encIndex v slot | encKeyed v slot | encCustom v slot =>
    exact .command h fun _ =>
      .withSlot fun _ => .whenKind (.whenWritable (.whenTakes (encodeEffect_keeps_faulted v slot s _)))
  | slotNotify => exact .command h fun _ => .withSlot fun _ => .ite .raise (.done rfl)
  | slotWrite slot =>
    exact .command h fun _ =>
      .withSlot fun _ => .ite .raise (.whenTakes (slotWriteEffect_keeps_faulted slot s _))
  | txSend | txnStartInt | txnStartExt | evTimeout => exact .command h fun _ => .ite (.done rfl) (.done rfl)
  | evPstart => exact .command h fun _ => .ite (.done rfl) (.ite (.done rfl) (.done rfl))
  | evSettle => exact .command h fun _ => .ite (.done rfl) (.ite (.done rfl) (.ite (.done rfl) (.done rfl)))
  | evUpdate =>
    have hpoll : (sendPoll s).faulted = s.faulted := by rw [sendPoll_eq]; rfl
    exact .command h fun _ => .ite (.done rfl) (.ite (.done rfl) (.done hpoll))
  | parse => exact .command h fun _ => .ofPair (faulted_parseBody s)
  | dispatch => exact .command h fun _ => .ofPair (faulted_dispatchBody s)
  | rxPri => exact .command h fun _ => .ofPair (faulted_rxPriBody s)
  | rxExt => exact .command h fun _ => .ofPair (faulted_rxExtBody s)
  | flush => exact .command h fun _ => .ofPair (faulted_flushBody s)
  | evLoop => exact .command h fun _ => .ofPair (faulted_loopBody s)
  | rdStatus sel =>
    change execRdStatus sel s = .next t at h
    unfold execRdStatus at h
    split at h
    · cases h
      exact .inl rfl
    · exact .command h fun _ => .done rfl
  | frameTxInit | frameTxStdPoll | frameTxExtPoll | frameTxCmd => exact .transmitFrame rfl h
  | frameRxPrePoll | frameRxPreCmd | frameRxPreInit | frameRxCatInit | frameRxCatStd | frameRxCatExtra =>
    cases h
    exact .inl (faulted_receiveBytes _ s)

end

/-- Settles O13: a latch that differs from the one before was set by fault entry. -/
theorem faultsArePrecise : Obligations.FaultsArePrecise := by
  unfold Obligations.FaultsArePrecise
  intro i s t h hs ht
  obtain hsame | ⟨c, info, rfl⟩ := exec_faultsPrecisely h
  · simp [hs, ht] at hsame
  · exact ⟨c, info, rfl⟩

end Sys2Proof.Machine
end

section
/-! PROOFS. The faulted engine (60_exceptions.md R347, R349): every instruction but RD_STATUS answers the latched code,
and nothing but a reset touches the latch or the events. -/

namespace Sys2Proof.Machine

section
variable {s t : State} {i : Instr}

/-! ### What an instruction answers (R347) -/

theorem exec_rdStatus_of_faulted (hf : s.faulted = true) (sel : StatusSel) :
    exec (.rdStatus sel) s = .next (s.respond ⟨.ok, .word (s.selectedWord sel)⟩) := if_pos hf

theorem exec_of_faulted (hi : i.encoding = .command) (hstatus : ∀ sel, i ≠ .rdStatus sel) (hf : s.faulted = true) :
    exec i s = .next s.respondFaulted := by
  cases i with
  | rdStatus sel => exact absurd rfl (hstatus sel)
  | frameTxInit | frameTxStdPoll | frameTxExtPoll | frameTxCmd | frameRxPrePoll | frameRxPreCmd | frameRxPreInit
  | frameRxCatInit | frameRxCatStd | frameRxCatExtra => cases hi
  | _ => exact command_faulted _ _ _ _ hf

theorem exec_txHeader_of_faulted (hi : i.encoding = .txHeader) (hf : s.faulted = true) :
    exec i s = .next s.respondFaulted := by
  cases i with
  | frameTxInit | frameTxStdPoll | frameTxExtPoll | frameTxCmd => exact if_pos hf
  | _ => cases hi

theorem illegalCommand_of_faulted (hf : s.faulted = true) (w : Word) : illegalCommand w s = s.respondFaulted :=
  if_pos hf

/-! ### The latch stands (R349) -/

/-- The fault latch and the events. -/
def State.faultTrace (s : State) : Bool × BitVec 8 × BitVec 32 × List Event :=
  (s.faulted, s.faultCode, s.faultInfo, s.events)

theorem State.faultTrace_eq_iff (s t : State) :
    t.faultTrace = s.faultTrace ↔
      t.faulted = s.faulted ∧ t.faultCode = s.faultCode ∧ t.faultInfo = s.faultInfo ∧ t.events = s.events := by
  simp only [State.faultTrace, Prod.mk.injEq]

theorem faultTrace_receiveBytes (hf : s.faulted = true) (F : List Byte) :
    (receiveBytes F s).faultTrace = s.faultTrace := by
  rw [receiveBytes_of_faulted hf]
  rfl

theorem faultTrace_illegalCommand (hf : s.faulted = true) (w : Word) :
    (illegalCommand w s).faultTrace = s.faultTrace := by
  rw [illegalCommand_of_faulted hf]
  rfl

theorem exec_keeps_faultTrace (hf : s.faulted = true) (h : exec i s = .next t) : t.faultTrace = s.faultTrace := by
  cases he : i.encoding with
  | command =>
    by_cases hstatus : ∃ sel, i = .rdStatus sel
    · obtain ⟨sel, rfl⟩ := hstatus
      cases (exec_rdStatus_of_faulted hf sel).symm.trans h
      rfl
    · cases (exec_of_faulted he (not_exists.1 hstatus) hf).symm.trans h
      rfl
  | txHeader =>
    cases (exec_txHeader_of_faulted he hf).symm.trans h
    rfl
  | rxHeader =>
    obtain ⟨F, hF⟩ := exec_rxHeader he s
    cases hF.symm.trans h
    exact faultTrace_receiveBytes hf F

/-- Taking an input other than a reset leaves the latch and the events. -/
theorem fetch_keeps_faultTrace (hf : s.faulted = true) {x : Input} (hx : ∀ c, x ≠ .reset c) :
    (fetch x s).state.faultTrace = s.faultTrace := by
  cases x with
  | command w d =>
    cases hd : decodeCommand w with
    | ok i => rw [fetch_command_ok hd]; rfl
    | error e =>
      rw [fetch_command_error hd]
      exact faultTrace_illegalCommand (s := { s with data := d }) hf w
  | txFrame w =>
    cases hd : decodeTxHeader w with
    | ok i => rw [fetch_txFrame_ok hd]; rfl
    | error e => rw [fetch_txFrame_error hd]; rfl
  | rxFrame w B =>
    cases hd : decodeRxHeader w with
    | ok i => rw [fetch_rxFrame_ok hd]; rfl
    | error e => rw [fetch_rxFrame_error hd]; exact faultTrace_receiveBytes hf _
  | arrive p B => cases p <;> rfl
  | reset c => exact absurd rfl (hx c)

theorem step_keeps_faultTrace {x : Input} {rest : List Input} (hf : s.faulted = true) (hin : s.inputs = x :: rest)
    (hx : ∀ c, x ≠ .reset c) (h : step s = .next t) : t.faultTrace = s.faultTrace := by
  have htaken : (fetch x { s with inputs := rest }).state.faultTrace = s.faultTrace :=
    fetch_keeps_faultTrace (s := { s with inputs := rest }) hf hx
  cases hfetch : fetch x { s with inputs := rest } with
  | run i u =>
    rw [hfetch] at htaken
    have hu : u.faulted = true := (congrArg Prod.fst htaken).trans hf
    exact (exec_keeps_faultTrace hu ((step_of_fetch_run hin hfetch).symm.trans h)).trans htaken
  | settled u =>
    rw [hfetch] at htaken
    cases (step_of_fetch_settled hin hfetch).symm.trans h
    exact htaken

end

/-- Settles O14: by what the word decodes to, and by what one step leaves of the latch. -/
theorem faultedEngineAnswersOnlyStatus : Obligations.FaultedEngineAnswersOnlyStatus := by
  unfold Obligations.FaultedEngineAnswersOnlyStatus
  intro s hf
  refine ⟨fun w d rest hin hw => ?_, fun sel d rest hin => ?_, fun x rest t hin hx h => ?_⟩
  · cases hd : decodeCommand w with
    | ok i =>
      obtain ⟨he, rfl⟩ := encode_of_decodeCommand hd
      rw [step_of_fetch_run hin (fetch_command_ok hd d _)]
      exact exec_of_faulted he (fun sel hi => hw sel (congrArg encode hi)) hf
    | error e =>
      rw [step_of_fetch_settled hin (fetch_command_error hd d _)]
      exact congrArg _ (illegalCommand_of_faulted (s := { s with inputs := rest, data := d }) hf w)
  · rw [step_of_fetch_run hin (fetch_command_ok (decodeCommand_encode rfl) d _)]
    exact exec_rdStatus_of_faulted (s := { s with inputs := rest, data := d }) hf sel
  · obtain ⟨hfaulted, hcode, hinfo, hevents⟩ :=
      (State.faultTrace_eq_iff s t).1 (step_keeps_faultTrace hf hin hx h)
    exact ⟨hfaulted.trans hf, hcode, hinfo, hevents⟩

end Sys2Proof.Machine
end

section
/-! PROOFS. The steps that run no instruction (60_exceptions.md R361, 10_state.md R55): an idle step, an arrival, a
reset, and a header that no row matches (30_encoding.md R127, R128). -/

namespace Sys2Proof

/-- A word that no instruction of its encoding encodes to decodes to none. -/
theorem decode_eq_error {e : Encoding} {w : Word} (h : ∀ i : Instr, i.encoding = e → encode i ≠ w) :
    ∃ err, decode e w = .error err := by
  cases hd : decode e w with
  | error err => exact ⟨err, rfl⟩
  | ok i =>
    obtain ⟨-, he, hw⟩ := encodeOfDecodeIsTheWord e w i hd
    exact absurd hw (h i he)

end Sys2Proof

namespace Sys2Proof.Machine

section
variable {s : State} {h : Word} {B : List Byte} {rest : List Input}

theorem step_of_no_input (hin : s.inputs = []) : step s = .next s := by simp only [step, hin]

theorem step_arrive {p : Port} (hin : s.inputs = .arrive p B :: rest) :
    step s = .next (State.arrive { s with inputs := rest } p B) := step_of_fetch_settled hin rfl

theorem step_reset {c : Config} (hin : s.inputs = .reset c :: rest) :
    step s = .next (State.applyReset c { s with inputs := rest }) := step_of_fetch_settled hin rfl

/-- A header of no row of the frames HPFE sends does nothing (R127). -/
theorem step_txFrame_of_no_row (hin : s.inputs = .txFrame h :: rest)
    (hrow : ∀ i : Instr, i.encoding = .txHeader → encode i ≠ h) : step s = .next { s with inputs := rest } := by
  obtain ⟨e, he⟩ := decode_eq_error hrow
  exact step_of_fetch_settled hin (fetch_txFrame_error he _)

/-- A received header of no row is bytes like any other (R128). -/
theorem step_rxFrame_of_no_row (hin : s.inputs = .rxFrame h B :: rest)
    (hrow : ∀ i : Instr, i.encoding = .rxHeader → encode i ≠ h) :
    step s = .next (receiveBytes (headerBytes h ++ B) { s with inputs := rest }) := by
  obtain ⟨e, he⟩ := decode_eq_error hrow
  exact step_of_fetch_settled hin (fetch_rxFrame_error he B _)

end

/-- Settles O6: one equation of a step for each input; the receipt of bytes is their arrival and RX_PRI. -/
theorem stepWithoutACommand : Obligations.StepWithoutACommand := by
  unfold Obligations.StepWithoutACommand
  rintro s h B F c rest rfl
  refine ⟨step_of_no_input, step_arrive, step_arrive, fun hin => ⟨step_reset hin, rfl⟩, step_txFrame_of_no_row,
    fun hin hrow => ⟨fun hf => ?_, fun hf => ?_⟩⟩
  · rw [step_rxFrame_of_no_row hin hrow, receiveBytes_of_faulted (s := { s with inputs := rest }) hf]
    rfl
  · rw [step_rxFrame_of_no_row hin hrow]
    obtain ⟨u, hexec, hu⟩ := exec_rxPri_receiveBytes (s := { s with inputs := rest }) hf (headerBytes h ++ B)
    exact ⟨u, hexec, congrArg _ hu⟩

end Sys2Proof.Machine
end

section
/-! PROOFS. Reset (70_reset_and_hazards.md R380): the latch tells the first failing check (60_exceptions.md R357), the
views are those of empty arrays, and the invariant holds of what reset leaves. -/

namespace Sys2Proof

/-- An array that lists nothing reads as zeros (20_memory.md R70). -/
theorem Memory.slice_nil (off n : Nat) : Memory.slice [] off n = List.replicate n 0 :=
  calc Memory.slice [] off n
    _ = List.replicate (List.range n).length 0 := List.map_const'
    _ = List.replicate n 0 := by rw [List.length_range]

end Sys2Proof

namespace Sys2Proof.Machine

/-- Reset latches the number of the first failing check of R356 as `FAULT_INFO`. -/
theorem applyReset_latch_of_firstFailing_some {c : Config} {k : Nat} (h : c.firstFailing = some k) (s : State) :
    (s.applyReset c).faulted = true ∧ (s.applyReset c).faultCode = 0x0B ∧
      (s.applyReset c).faultInfo = BitVec.ofNat 32 k := by
  simp [State.applyReset, h, FaultCode.code]

/-- PCB resets to `zeros(CMD_N)`. -/
theorem applyReset_view_v1 (c : Config) (s : State) :
    (s.applyReset c).view .v1 = List.replicate (c.cmdLenField.toNat - 2) 0 := Memory.slice_nil 0 _

/-- Every cell of `DEDUP` resets to `none`. -/
theorem applyReset_dedup (c : Config) (s : State) : (s.applyReset c).dedup = List.replicate c.slots.length none := rfl

/-- Settles O7: the flags, the view of PCB, the cells and the latch have a lemma each; the rest is what reset writes. -/
theorem resetSetsEveryElement : Obligations.ResetSetsEveryElement := by
  unfold Obligations.ResetSetsEveryElement
  intro c s
  obtain ⟨hcat, hdirty, hext, hproxy, hextra, hpoll, hpstart, hsettle, htmr, htxn⟩ := applyReset_statusFlags c s
  refine ⟨rfl, rfl, rfl, hcat, rfl, rfl, rfl, rfl, applyReset_view_v1 c s, hdirty, htxn, htmr, hsettle, hpstart, hpoll,
    rfl, hextra, hproxy, hext, ?_, fun n hn => ?_, fun h => applyReset_latch_of_firstFailing_none h s,
    fun k h => applyReset_latch_of_firstFailing_some h s, rfl, rfl, rfl, rfl⟩
  · rw [applyReset_dedup, List.length_replicate]
  · rw [applyReset_dedup, List.getElem?_replicate_of_lt hn]

/-- Settles O10: the machine's own reset is the reset under VC. -/
theorem resetMeetsTheInvariant : Obligations.ResetMeetsTheInvariant :=
  ⟨inv_applyReset, inv_applyReset Config.vc _⟩

end Sys2Proof.Machine
end

section
/-! PROOFS. Timeout against response (70_reset_and_hazards.md R393). RX_PRI's body reads neither the events, nor EXT's
output, nor the response port, and reads the transaction for the mirroring alone; so from states that agree but for
these it answers alike, and leaves states that agree but for these. A timeout changes nothing else. -/

namespace Sys2Proof.Machine

/-! ### States apart from the log, the mirrored bytes, the response port and the transaction -/

/-- The state without the log, the mirrored bytes and the response. -/
def State.unlogged (s : State) : State := { s with events := [], extTx := [], resp := none }

/-- What EV_TIMEOUT cannot change: the state without the log, the mirrored bytes and the response, its transaction
closed. -/
def State.silenced (s : State) : State := s.closeTxn.unlogged

theorem State.unlogged_respond (s : State) (r : Response) : (s.respond r).unlogged = s.unlogged := rfl

/-- A body's response, and the state it leaves, silenced. -/
def silencedResult (p : Response × State) : Response × State := (p.1, p.2.silenced)

theorem silencedResult_eq_iff (p q : Response × State) :
    silencedResult p = silencedResult q ↔ p.1 = q.1 ∧ p.2.silenced = q.2.silenced := Prod.mk_inj

/-! ### RX_PRI's body does not look at what is silenced -/

theorem takeBatch_silenced (s : State) : (takeBatch s.silenced).silenced = (takeBatch s).silenced := rfl

theorem finishFrame_silenced (s : State) (F : List Byte) :
    silencedResult (finishFrame s.silenced F) = silencedResult (finishFrame s F) := by
  by_cases h : sum8 F = 0
  · rw [finishFrame_of_valid h, finishFrame_of_valid h]
    rfl
  · rw [finishFrame_of_badChecksum h, finishFrame_of_badChecksum h]
    rfl

/-- The parser's conditions look at the buffer and the configuration alone. -/
theorem parseAligned_silenced (s : State) (q : List Byte) :
    silencedResult (parseAligned s.silenced q) = silencedResult (parseAligned s q) := by
  simp only [parseAligned, apply_ite silencedResult]
  exact ite_congr rfl (fun _ => rfl) fun _ => ite_congr rfl (fun _ => rfl) fun _ => ite_congr rfl (fun _ => rfl)
    fun _ => finishFrame_silenced { s with rbQ := q.drop ((byteAt q 1).toNat + 3) } _

theorem parseBody_silenced (s : State) : silencedResult (parseBody s.silenced) = silencedResult (parseBody s) := by
  simp only [parseBody, apply_ite silencedResult]
  exact ite_congr rfl (fun _ => rfl) fun _ => parseAligned_silenced s (align s.cfg s.rbQ)

theorem dispatchBody_silenced (s : State) :
    silencedResult (dispatchBody s.silenced) = silencedResult (dispatchBody s) := by
  by_cases h : s.fbCat = .std ∨ s.fbCat = .extra
  · rw [dispatchBody_of_slots h, dispatchBody_of_slots (s := s.silenced) h]
    rfl
  · rw [dispatchBody_of_no_slots h, dispatchBody_of_no_slots (s := s.silenced) h]
    rfl

theorem afterParse_silenced (p : Response × State) :
    silencedResult (afterParse (silencedResult p)) = silencedResult (afterParse p) := by
  by_cases h : p.1.status = .ok
  · obtain ⟨-, hstate⟩ := (silencedResult_eq_iff _ _).1 (dispatchBody_silenced p.2)
    rw [afterParse, if_pos (show (silencedResult p).1.status = .ok from h), afterParse, if_pos h]
    exact Prod.ext rfl hstate
  · rw [afterParse, if_neg (show ¬ (silencedResult p).1.status = .ok from h), afterParse, if_neg h]
    rfl

section
variable {s t : State}

theorem parseBody_congr (h : s.silenced = t.silenced) :
    silencedResult (parseBody s) = silencedResult (parseBody t) := by
  rw [← parseBody_silenced s, h, parseBody_silenced]

theorem takeBatch_congr (h : s.silenced = t.silenced) : (takeBatch s).silenced = (takeBatch t).silenced := by
  rw [← takeBatch_silenced s, h, takeBatch_silenced]

/-- From states that agree but for what is silenced, RX_PRI answers alike and leaves such states (R302). -/
theorem rxPriBody_congr (h : s.silenced = t.silenced) :
    silencedResult (rxPriBody s) = silencedResult (rxPriBody t) := by
  rw [rxPriBody, rxPriBody, ← afterParse_silenced, parseBody_congr (takeBatch_congr h), afterParse_silenced]

/-! ### The response -/

/-- RX_PRI answers OK only where it has accepted a frame, and then the transaction is closed (R302). -/
theorem rxPriBody_closed (h : (rxPriBody s).1.status = .ok) : (rxPriBody s).2.closeTxn = (rxPriBody s).2 := by
  by_cases hok : (parseBody (takeBatch s)).1.status = .ok
  · rw [rxPriBody_of_ok hok]
    rfl
  · rw [rxPriBody_of_not_ok hok] at h
    exact absurd h hok

theorem State.txn_of_closed (h : s.closeTxn = s) : s.txnState = .idle ∧ s.txnTmr = false := by
  rw [← h]
  exact ⟨rfl, rfl⟩

/-- A closed transaction is silenced as it is. -/
theorem State.silenced_of_closed (h : s.closeTxn = s) : s.silenced = s.unlogged := congrArg State.unlogged h

/-! ### The timeout -/

/-- Everything EV_TIMEOUT can do from a ready engine (R295, R296). -/
theorem evTimeout_cases (hs : Ready s .empty) (h : exec .evTimeout s = .next t) :
    (s.txnTmr = false ∧ t = s.respond ⟨.noEffect, .empty⟩) ∨
    (s.txnTmr = true ∧ t = (s.closeTxn.emit [logEvent .wTxnTimeout]).respond ⟨.ok, .empty⟩) := by
  obtain ⟨harmed, hunarmed, -⟩ := timeoutAndUnarmedTimers s hs
  cases htmr : s.txnTmr with
  | false => exact .inl ⟨rfl, eq_respond_of_answers (hunarmed htmr) h⟩
  | true => exact .inr ⟨rfl, eq_respond_of_answers (harmed htmr) h⟩

/-- EV_TIMEOUT writes only what is silenced. -/
theorem silenced_evTimeout (hs : Ready s .empty) (h : exec .evTimeout s = .next t) : t.silenced = s.silenced := by
  obtain ⟨-, rfl⟩ | ⟨-, rfl⟩ := evTimeout_cases hs h <;> rfl

theorem Ready.evTimeout (hs : Ready s .empty) (h : exec .evTimeout s = .next t) : Ready t .empty := by
  obtain ⟨-, rfl⟩ | ⟨-, rfl⟩ := evTimeout_cases hs h <;> exact hs

/-- The timeout of an open transaction logs itself and closes it. -/
theorem evTimeout_of_open (hs : Ready s .empty) (htimer : timerMatches s) (hopen : s.txnState ≠ .idle)
    (h : exec .evTimeout s = .next t) :
    t.txnState = .idle ∧ t.events = s.events ++ [.log .warning .wTxnTimeout] := by
  obtain ⟨hunarmed, -⟩ | ⟨-, rfl⟩ := evTimeout_cases hs h
  · simp [htimer.2 hopen] at hunarmed
  · exact ⟨rfl, rfl⟩

/-- A timeout that finds no timer armed does nothing and logs nothing. -/
theorem evTimeout_of_unarmed (hs : Ready s .empty) (htmr : s.txnTmr = false) (h : exec .evTimeout s = .next t) :
    t = s.respond ⟨.noEffect, .empty⟩ := by
  obtain ⟨-, ht⟩ | ⟨harmed, -⟩ := evTimeout_cases hs h
  · exact ht
  · simp [htmr] at harmed

end

/-- Settles O60: the timeout finds no timer armed after the response, and before it changes only what RX_PRI's body does
not look at; either way the response closes the transaction. -/
theorem timeoutAndResponseCommute : Obligations.TimeoutAndResponseCommute := by
  unfold Obligations.TimeoutAndResponseCommute
  intro s a b c d k hs htimer hsa hresp hab hsc hcd
  have hc : Ready c .empty := hs.evTimeout hsc
  obtain rfl := eq_respond_of_answers (answers_rxPri hs) hsa
  obtain rfl := eq_respond_of_answers (answers_rxPri hc) hcd
  have hok : (rxPriBody s).1.status = .ok := congrArg Response.status (Option.some.inj hresp)
  have hclosed := rxPriBody_closed hok
  obtain ⟨hidle, htmr⟩ := State.txn_of_closed hclosed
  obtain rfl := evTimeout_of_unarmed (hs.rxPriBody.respond _) htmr hab
  obtain ⟨hanswer, hstate⟩ := (silencedResult_eq_iff _ _).1 (rxPriBody_congr (silenced_evTimeout hs hsc))
  have hclosed' := rxPriBody_closed (s := c) (hanswer ▸ hok)
  refine ⟨⟨hidle, htmr, rfl, rfl⟩, fun hopen => evTimeout_of_open hs htimer hopen hsc, congrArg some hanswer, ?_⟩
  change State.unlogged _ = State.unlogged _
  rw [State.unlogged_respond, State.unlogged_respond, State.unlogged_respond, ← State.silenced_of_closed hclosed,
    ← State.silenced_of_closed hclosed', hstate]

end Sys2Proof.Machine
end
